-- ==== Sys2Proof/Word.lean ====
section
/-!
DEFINITION. The plain data every other file is written in: the byte of the console line and of the radio
line, the numberings of Table 0.3 (sections, zones, detector inputs, groups, trucks, convoys), the four console
ports, and a table of a fixed number of like records.
-/

namespace Sys2Proof

/-- One byte of a console message (R147) or of a radio frame (Table 8.1). -/
abbrev Byte := BitVec 8

/-- A section, 0 to 47 (Table 0.3). -/
abbrev Sec := Fin 48

/-- A passage group, 0 to 7 (Table 0.3). -/
abbrev Grp := Fin 8

/-- A zone, 0 to 15 (Table 0.3). -/
abbrev Zone := Fin 16

/-- A zone-pair profile, 0 to 7; profile p serves zones 2p and 2p+1 (R6). -/
abbrev ProfileNo := Fin 8

/-- A detector input, 0 to 63 (Table 0.3). -/
abbrev Inp := Fin 64

/-- A filter group, 0 to 15; group f serves inputs 4f to 4f+3 (R10). -/
abbrev FilterNo := Fin 16

/-- A convoy. Convoy number c of the manual (1 to 12) is the index c − 1. -/
abbrev Conv := Fin 12

/-- A truck. Radio address a of the manual (1 to 32) is the index a − 1; the broadcast address 0 is no truck. -/
abbrev Addr := Fin 32

/-- The manual's number of a convoy, 1 to 12. -/
def convoyNumber (c : Conv) : Nat := c.1 + 1

/-- The manual's radio address of a truck, 1 to 32. -/
def radioAddress (a : Addr) : Nat := a.1 + 1

/-- The four console ports (Table 0.3). -/
inductive Port where
  | a
  | b
  | c
  | d
  deriving DecidableEq, Repr

/-- The ports in the order A, B, C, D. -/
def Port.all : List Port := [.a, .b, .c, .d]

/-- The code of a port in replies: 1 for A to 4 for D (R151). -/
def Port.code : Port → Nat
  | .a => 1
  | .b => 2
  | .c => 3
  | .d => 4

/-- One value for each console port. -/
structure PerPort (α : Type) where
  a : α
  b : α
  c : α
  d : α
  deriving DecidableEq, Repr

/-- The value kept for port `p`. -/
def PerPort.nth {α : Type} (t : PerPort α) : Port → α
  | .a => t.a
  | .b => t.b
  | .c => t.c
  | .d => t.d

/-- `t` with the value of port `p` replaced. -/
def PerPort.put {α : Type} (t : PerPort α) (p : Port) (x : α) : PerPort α :=
  match p with
  | .a => { t with a := x }
  | .b => { t with b := x }
  | .c => { t with c := x }
  | .d => { t with d := x }

/-- The same value for every port. -/
def PerPort.all {α : Type} (x : α) : PerPort α := ⟨x, x, x, x⟩

/-- `f` applied to the value of every port. -/
def PerPort.map {α β : Type} (f : α → β) (t : PerPort α) : PerPort β := ⟨f t.a, f t.b, f t.c, f t.d⟩

/-- A fixed number of like records. -/
abbrev Tab (n : Nat) (α : Type) := Vector α n

/-- Record `i` of a table. -/
def Tab.nth {n : Nat} {α : Type} (t : Tab n α) (i : Fin n) : α := t[i.1]

/-- `t` with record `i` replaced. -/
def Tab.put {n : Nat} {α : Type} (t : Tab n α) (i : Fin n) (x : α) : Tab n α := t.set i.1 x

/-- `n` copies of one record. -/
def Tab.all {α : Type} (n : Nat) (x : α) : Tab n α := Vector.replicate n x

/-- `f` applied to every record. -/
def Tab.map {n : Nat} {α β : Type} (f : α → β) (t : Tab n α) : Tab n β := Vector.map f t

/-- The table whose record `i` is `f i`. -/
def Tab.make {α : Type} (n : Nat) (f : Fin n → α) : Tab n α := Vector.ofFn f

end Sys2Proof
end

