-- ==== Sys2Proof/Machine/Layout.lean ====
section
/-!
DEFINITION. The types of the working map's records (Chapter 1, Table 1.1) and of the contents of the map store
(R22). They stand before the commands, because the end of a commit carries the contents that were read back.
A section record holds what the bit fields of Table 1.6 can carry, since a barred section's record may hold any
contents (R2); notes/assumptions/9.md.
-/

namespace Sys2Proof.Machine

/-- The kind of a section (R4). `code3` is kind code 3, which Table 1.6 leaves unassigned: only the record of a
barred section that a stored image brought in can hold it (R2, R18). -/
inductive SecKind where
  | plain
  | fork
  | bay
  | code3
  deriving DecidableEq, Repr

/-- A section record, Table 1.2 (R3). `length` is in cm; `entry` and `brake` are detector inputs; `succ0` and
`succ1` are section numbers as the six bits of Table 1.6 hold them. -/
structure SectionRec where
  kind : SecKind
  zone : Zone
  length : Nat
  entry : Inp
  brake : Option Inp
  succ0 : Option Nat
  succ1 : Option Nat
  group : Option Grp
  barred : Bool
  deriving DecidableEq, Repr

/-- A zone-pair profile, Table 1.4 (R6). The two codes fill their bit fields (R19), so every value of them is legal. -/
structure Profile where
  speedCap : Nat
  approachCap : Nat
  holdCode : Fin 4
  settleCode : Fin 8
  deriving DecidableEq, Repr

/-- A detector setting (R9). `activeHigh` says that the high level of the line is the active one. -/
structure DetectorSetting where
  enabled : Bool
  activeHigh : Bool
  deriving DecidableEq, Repr

/-- The settings record (R12): port levels, chord selection, configured refresh period in ms, threshold code. -/
structure Settings where
  levels : PerPort Nat
  chord : Nat
  refresh : Nat
  threshold : Nat
  deriving DecidableEq, Repr

/-- The list of a passage group record (R11): up to 8 section numbers, as the store holds them. -/
structure GroupList where
  numbers : List Nat
  bound : numbers.length ≤ 8
  deriving DecidableEq, Repr

/-- The group list of the first 8 numbers of a list. -/
def GroupList.of (l : List Nat) : GroupList := ⟨l.take 8, List.length_take_le 8 l⟩

/-- The working map, Table 1.1 (R1). A filter code is 0 to 7 (R10). -/
structure LayoutMap where
  sections : Tab 48 SectionRec
  profiles : Tab 8 Profile
  detectors : Tab 64 DetectorSetting
  filters : Tab 16 (Fin 8)
  groups : Tab 8 GroupList
  settings : Settings
  deriving DecidableEq, Repr

/-- The section numbers of passage group `g` (R11). -/
def LayoutMap.groupList (m : LayoutMap) (g : Grp) : List Nat := (m.groups.nth g).numbers

/-- What the map store holds: an image with its two-byte check value (R22), or contents whose check value does
not match, as an abandoned write leaves them (R33). -/
inductive StoreContents where
  | image (map : LayoutMap) (check : Nat)
  | torn
  deriving DecidableEq, Repr, Inhabited

end Sys2Proof.Machine
end

