-- ==== Sys2Proof/Config.lean ====
section
/-!
DEFINITION. What the manual leaves open, as constants without a body: the order in which events at one instant,
scans and notices of one event are taken, what the outside of the part answers when the model's own clock comes to
ask, and the byte layout of the stored image. Nothing in the model or in a proof can see their values.
-/

namespace Sys2Proof.Config

open Sys2Proof.Machine

/-- A choice the manual leaves open ("in any order", "either may be taken first"): choice number `k`, read modulo
the number of candidates. notes/assumptions/4.md. -/
opaque choice : Nat → Nat

/-- The level of RFRDY at the slot start the model's clock begins at time `t` (R130). notes/assumptions/5.md. -/
opaque modemReady : Nat → Bool

/-- Whether the store can be read to its end within a load that the model's clock ends at time `t` (R22).
notes/assumptions/5.md. -/
opaque storeReadable : Nat → Bool

/-- What the store gives when a commit that the model's clock ends at time `t` is read back (R32).
notes/assumptions/5.md. -/
opaque readBack : Nat → StoreContents

/-- The bytes of the stored image of a map, the check value left out. R22 names the parts of the image and not
their layout. notes/assumptions/6.md. -/
opaque imageBytes : LayoutMap → List Byte

end Sys2Proof.Config
end

