-- ==== Sys2Proof/Syntax.lean ====
section
/-!
DEFINITION. The commands of the part: one constructor for each row of spec/opcode_table.json, in the table's
order. A request carries the port it arrives at, its tag and its raw body bytes (Table 9.1), so that every body a
console can send, well or badly formed, is a command. An event on a line carries the level it leaves on the
line; a supply event carries the supply in mV.
-/

namespace Sys2Proof

open Sys2Proof.Machine

/-- One command: a row of the table of operations and events. -/
inductive Instr where
  /-- POWER_RESET (R20): power-up, or RESETN goes low. -/
  | powerReset
  /-- BROWN_OUT (R166): the supply falls below 4.2 V, to `mv` millivolts. -/
  | brownOut (mv : Nat)
  /-- POWER_RESET_RELEASE (R20, R166): RESETN is high and the supply stands at `mv` millivolts. -/
  | powerResetRelease (mv : Nat)
  /-- END_OF_THE_LOAD (R22): the load ends; `readable` says that the store could be read to its end in time. -/
  | endOfTheLoad (readable : Bool)
  /-- ATTACH (R146): the present line of `p` changes to show a console; or, where it shows one already, its 50 ms watch ends. -/
  | attach (p : Port)
  /-- DETACH (R146): the present line of `p` changes to show none; or, where it shows none already, its 50 ms watch ends. -/
  | detach (p : Port)
  /-- INTER_BYTE_GAP (R148): more than 1 ms passes between two bytes of a message; `b` is the byte that ends the gap. -/
  | interByteGap (p : Port) (b : Byte)
  /-- MESSAGE_DISCARDED (R148): a complete message whose check fails, or a framing error. -/
  | messageDiscarded (p : Port)
  /-- UNKNOWN_KIND (R149): a complete request whose kind code is not in Table 9.3. -/
  | unknownKind (p : Port) (kind : Byte) (tag : Byte) (body : List Byte)
  /-- READ_MAP (R26): the request message of port `p`, complete at the arrival of its check byte. -/
  | readMap (p : Port) (tag : Byte) (body : List Byte)
  /-- EDIT_SECTION (R27): the request message of port `p`, complete at the arrival of its check byte. -/
  | editSection (p : Port) (tag : Byte) (body : List Byte)
  /-- EDIT_ZONE (R28): the request message of port `p`, complete at the arrival of its check byte. -/
  | editZone (p : Port) (tag : Byte) (body : List Byte)
  /-- EDIT_DETECTOR (R29): the request message of port `p`, complete at the arrival of its check byte. -/
  | editDetector (p : Port) (tag : Byte) (body : List Byte)
  /-- EDIT_GROUP (R30): the request message of port `p`, complete at the arrival of its check byte. -/
  | editGroup (p : Port) (tag : Byte) (body : List Byte)
  /-- EDIT_SETTINGS (R31): the request message of port `p`, complete at the arrival of its check byte. -/
  | editSettings (p : Port) (tag : Byte) (body : List Byte)
  /-- COMMIT_MAP (R32): the request message of port `p`, complete at the arrival of its check byte. -/
  | commitMap (p : Port) (tag : Byte) (body : List Byte)
  /-- COMMIT_END (R32): the write ends and the store is read back as `readBack`. -/
  | commitEnd (readBack : StoreContents)
  /-- QUERY_DETECTORS (R44): the request message of port `p`, complete at the arrival of its check byte. -/
  | queryDetectors (p : Port) (tag : Byte) (body : List Byte)
  /-- CLAIM (R56): the request message of port `p`, complete at the arrival of its check byte. -/
  | claim (p : Port) (tag : Byte) (body : List Byte)
  /-- RELEASE_CLAIM (R57): the request message of port `p`, complete at the arrival of its check byte. -/
  | releaseClaim (p : Port) (tag : Byte) (body : List Byte)
  /-- FORM (R59, R60): the request message of port `p`, complete at the arrival of its check byte. -/
  | form (p : Port) (tag : Byte) (body : List Byte)
  /-- REFORM (R61, R62): the request message of port `p`, complete at the arrival of its check byte. -/
  | reform (p : Port) (tag : Byte) (body : List Byte)
  /-- DISBAND (R63): the request message of port `p`, complete at the arrival of its check byte. -/
  | disband (p : Port) (tag : Byte) (body : List Byte)
  /-- SET_PARAMS (R64, R65): the request message of port `p`, complete at the arrival of its check byte. -/
  | setParams (p : Port) (tag : Byte) (body : List Byte)
  /-- HOLD (R66): the request message of port `p`, complete at the arrival of its check byte. -/
  | hold (p : Port) (tag : Byte) (body : List Byte)
  /-- UNHOLD (R67): the request message of port `p`, complete at the arrival of its check byte. -/
  | unhold (p : Port) (tag : Byte) (body : List Byte)
  /-- CLEAR_FAULT (R68): the request message of port `p`, complete at the arrival of its check byte. -/
  | clearFault (p : Port) (tag : Byte) (body : List Byte)
  /-- QUERY_CONVOY (R69): the request message of port `p`, complete at the arrival of its check byte. -/
  | queryConvoy (p : Port) (tag : Byte) (body : List Byte)
  /-- SET_ROUTE (R74, R75): the request message of port `p`, complete at the arrival of its check byte. -/
  | setRoute (p : Port) (tag : Byte) (body : List Byte)
  /-- START (R76): the request message of port `p`, complete at the arrival of its check byte. -/
  | start (p : Port) (tag : Byte) (body : List Byte)
  /-- RETRY (R79): the request message of port `p`, complete at the arrival of its check byte. -/
  | retry (p : Port) (tag : Byte) (body : List Byte)
  /-- BAR (R91): the request message of port `p`, complete at the arrival of its check byte. -/
  | bar (p : Port) (tag : Byte) (body : List Byte)
  /-- UNBAR (R92): the request message of port `p`, complete at the arrival of its check byte. -/
  | unbar (p : Port) (tag : Byte) (body : List Byte)
  /-- CLEAR_SECTION (R93): the request message of port `p`, complete at the arrival of its check byte. -/
  | clearSection (p : Port) (tag : Byte) (body : List Byte)
  /-- SET_STOCK (R94): the request message of port `p`, complete at the arrival of its check byte. -/
  | setStock (p : Port) (tag : Byte) (body : List Byte)
  /-- QUERY_SECTION (R95): the request message of port `p`, complete at the arrival of its check byte. -/
  | querySection (p : Port) (tag : Byte) (body : List Byte)
  /-- AUX (R140): the request message of port `p`, complete at the arrival of its check byte. -/
  | aux (p : Port) (tag : Byte) (body : List Byte)
  /-- SET_NOTIFY (R152, R157): the request message of port `p`, complete at the arrival of its check byte. -/
  | setNotify (p : Port) (tag : Byte) (body : List Byte)
  /-- ALL_STOP (R162): the request message of port `p`, complete at the arrival of its check byte. -/
  | allStop (p : Port) (tag : Byte) (body : List Byte)
  /-- RESUME_ALL (R163): the request message of port `p`, complete at the arrival of its check byte. -/
  | resumeAll (p : Port) (tag : Byte) (body : List Byte)
  /-- LAYOUT_RESET (R164): the request message of port `p`, complete at the arrival of its check byte. -/
  | layoutReset (p : Port) (tag : Byte) (body : List Byte)
  /-- CHANGE_OF_LOGICAL_LEVEL (R36): the line of input `d` goes to the high (`true`) or the low level. -/
  | changeOfLogicalLevel (d : Inp) (high : Bool)
  /-- CHECK_TIMER_EXPIRY (R36): the check timer of input `d` reaches its check time. -/
  | checkTimerExpiry (d : Inp)
  /-- CLEARANCE_TIMER_EXPIRY (R88): the clearance timer of section `x` expires. -/
  | clearanceTimerExpiry (x : Sec)
  /-- SETTLE_TIMER_EXPIRY (R84): the fork settle timer of convoy `c` expires. -/
  | settleTimerExpiry (c : Conv)
  /-- GAP_TIMER_TLAG (R111): the gap timer of convoy `c` at boundary `j` reaches its working Tlag. -/
  | gapTimerTlag (c : Conv) (j : Nat)
  /-- GAP_TIMER_TLOST (R111): the gap timer of convoy `c` at boundary `j` reaches its working Tlost. -/
  | gapTimerTlost (c : Conv) (j : Nat)
  /-- RAMP_TICK (R116): the 50 ms ramp tick. -/
  | rampTick
  /-- SLOT_START (R130): a radio slot starts with RFRDY at `ready`. -/
  | slotStart (ready : Bool)
  /-- RADIO_LOST (R131): the slot start, modem not ready, that brings the not-ready count to 20. -/
  | radioLost
  /-- SUPPLY_LOW (R165): the supply falls to `mv` millivolts. -/
  | supplyLow (mv : Nat)
  /-- SUPPLY_OK (R165): the supply rises to `mv` millivolts. -/
  | supplyOk (mv : Nat)
  /-- FLUSH_TIMER_EXPIRY (R159): the flush timer of port `p` expires. -/
  | flushTimerExpiry (p : Port)
  /-- BATCH_START (R159): the idle transmitter of port `p` begins its notice batch. -/
  | batchStart (p : Port)
  /-- REPLY_SEND_START (R154): the idle transmitter of port `p` begins its oldest reply. -/
  | replySendStart (p : Port)
  /-- MESSAGE_END (R154): the last byte of the message that port `p` is sending has been sent. -/
  | messageEnd (p : Port)
  deriving DecidableEq, Repr

end Sys2Proof
end

