-- ==== Sys2Proof/WellFormed.lean ====
section
/-!
DEFINITION. Which commands the outside can send: a message body of 0 to 72 bytes (R147), an unknown kind code that
is in fact in no row of Table 9.3, supply levels on the right side of the brown-out limits (R166), and a boundary
index that a crossing record can have (Table 6.1).
-/

namespace Sys2Proof

/-- The kind codes of Table 9.3. -/
def requestCodes : List Nat :=
  [0x01, 0x02, 0x03, 0x04, 0x05, 0x06, 0x07, 0x08]
    ++ [0x10, 0x11, 0x12, 0x13, 0x14, 0x15, 0x16, 0x17, 0x18, 0x19]
    ++ [0x20, 0x21, 0x22, 0x23, 0x24, 0x25, 0x26, 0x27]
    ++ [0x30, 0x31, 0x38, 0x39, 0x3A]

/-- The greatest number of body bytes of a message (R147). -/
def maxBody : Nat := 72

/-- The body of a message holds 0 to 72 bytes (R147). -/
def bodyFits (body : List Byte) : Bool := decide (body.length ≤ maxBody)

/-- The commands that can arise: see the file's opening. -/
def Instr.wellFormed : Instr → Bool
  | .powerReset => true
  | .brownOut mv => decide (mv < 4200)
  | .powerResetRelease mv => decide (4200 ≤ mv)
  | .endOfTheLoad _ => true
  | .attach _ => true
  | .detach _ => true
  | .interByteGap _ _ => true
  | .messageDiscarded _ => true
  | .unknownKind _ kind _ body => !requestCodes.contains kind.toNat && bodyFits body
  | .readMap _ _ body => bodyFits body
  | .editSection _ _ body => bodyFits body
  | .editZone _ _ body => bodyFits body
  | .editDetector _ _ body => bodyFits body
  | .editGroup _ _ body => bodyFits body
  | .editSettings _ _ body => bodyFits body
  | .commitMap _ _ body => bodyFits body
  | .commitEnd _ => true
  | .queryDetectors _ _ body => bodyFits body
  | .claim _ _ body => bodyFits body
  | .releaseClaim _ _ body => bodyFits body
  | .form _ _ body => bodyFits body
  | .reform _ _ body => bodyFits body
  | .disband _ _ body => bodyFits body
  | .setParams _ _ body => bodyFits body
  | .hold _ _ body => bodyFits body
  | .unhold _ _ body => bodyFits body
  | .clearFault _ _ body => bodyFits body
  | .queryConvoy _ _ body => bodyFits body
  | .setRoute _ _ body => bodyFits body
  | .start _ _ body => bodyFits body
  | .retry _ _ body => bodyFits body
  | .bar _ _ body => bodyFits body
  | .unbar _ _ body => bodyFits body
  | .clearSection _ _ body => bodyFits body
  | .setStock _ _ body => bodyFits body
  | .querySection _ _ body => bodyFits body
  | .aux _ _ body => bodyFits body
  | .setNotify _ _ body => bodyFits body
  | .allStop _ _ body => bodyFits body
  | .resumeAll _ _ body => bodyFits body
  | .layoutReset _ _ body => bodyFits body
  | .changeOfLogicalLevel _ _ => true
  | .checkTimerExpiry _ => true
  | .clearanceTimerExpiry _ => true
  | .settleTimerExpiry _ => true
  | .gapTimerTlag _ j => decide (1 ≤ j) && decide (j ≤ 15)
  | .gapTimerTlost _ j => decide (1 ≤ j) && decide (j ≤ 15)
  | .rampTick => true
  | .slotStart _ => true
  | .radioLost => true
  | .supplyLow mv => decide (4200 ≤ mv)
  | .supplyOk mv => decide (4200 ≤ mv)
  | .flushTimerExpiry _ => true
  | .batchStart _ => true
  | .replySendStart _ => true
  | .messageEnd _ => true

end Sys2Proof
end

