-- ==== Sys2Proof/Decode.lean ====
section
/-!
DEFINITION. How commands are spelled. No row of spec/opcode_table.json gives bits, so `decodeTableWord` spells none
of them. The requests are spelled by the console messages of Chapter 9: the layout of a message (R147), the
receiver that frames incoming bytes (R148), and the request that a complete message is, by its kind code
(Table 9.3).
-/

namespace Sys2Proof

/-- The command a word spells by the table's bits: the table gives no row any bits, so none. -/
def decodeTableWord (_nbits _w : Nat) : Option Instr := none

/-- Byte 0 of every message, 0x3C (R147). -/
def syncByte : Byte := 0x3C

/-- A console message less its sync, length and check bytes (Table 9.1). -/
structure Message where
  kind : Byte
  tag : Byte
  body : List Byte
  deriving DecidableEq, Repr

/-- The length byte of a message (Table 9.1). -/
def lengthByte (body : List Byte) : Byte := BitVec.ofNat 8 body.length

/-- The 8-bit sum of a list of bytes. -/
def byteSum (bs : List Byte) : Byte := bs.foldr (· + ·) 0

/-- The check byte: it makes the 8-bit sum from the length to the check equal to 0 (Table 9.1). -/
def checkByte (m : Message) : Byte := 0 - (lengthByte m.body + m.kind + m.tag + byteSum m.body)

/-- The bytes of a message on the line, in the order of Table 9.1. -/
def Message.bytes (m : Message) : List Byte :=
  [syncByte, lengthByte m.body, m.kind, m.tag] ++ m.body ++ [checkByte m]

/-- The states of a port's receiver (R148), with what has been received of the message in progress. -/
inductive Receiver where
  | hunt
  | awaitLength
  | awaitKind (len : Byte)
  | awaitTag (len kind : Byte)
  | awaitBody (len kind tag : Byte) (got : List Byte)
  | awaitCheck (len kind tag : Byte) (got : List Byte)
  deriving DecidableEq, Repr

/-- One received byte (R148): the receiver's next state, and the message where the byte completes one whose 8-bit
sum from length to check is 0. -/
def Receiver.onByte (r : Receiver) (b : Byte) : Receiver × Option Message :=
  match r with
  | .hunt => (if b = syncByte then .awaitLength else .hunt, none)
  | .awaitLength => (if b.toNat ≤ maxBody then .awaitKind b else .hunt, none)
  | .awaitKind len => (.awaitTag len b, none)
  | .awaitTag len kind => (if len = 0 then .awaitCheck len kind b [] else .awaitBody len kind b [], none)
  | .awaitBody len kind tag got =>
    (if (got ++ [b]).length = len.toNat then .awaitCheck len kind tag (got ++ [b])
      else .awaitBody len kind tag (got ++ [b]), none)
  | .awaitCheck len kind tag got =>
    (.hunt, if len + kind + tag + byteSum got + b = 0 then some ⟨kind, tag, got⟩ else none)

/-- A run of bytes through the receiver: its last state, and the messages completed, in order. -/
def Receiver.onBytes (r : Receiver) : List Byte → Receiver × List Message
  | [] => (r, [])
  | b :: bs =>
    let (r', m) := r.onByte b
    let (r'', ms) := r'.onBytes bs
    (r'', m.toList ++ ms)

/-- The request that a complete message arriving at port `p` is (Table 9.3, R149 step 3). -/
def requestOf (p : Port) (m : Message) : Instr :=
  match m.kind.toNat with
  | 0x01 => .readMap p m.tag m.body
  | 0x02 => .editSection p m.tag m.body
  | 0x03 => .editZone p m.tag m.body
  | 0x04 => .editDetector p m.tag m.body
  | 0x05 => .editGroup p m.tag m.body
  | 0x06 => .editSettings p m.tag m.body
  | 0x07 => .commitMap p m.tag m.body
  | 0x08 => .queryDetectors p m.tag m.body
  | 0x10 => .claim p m.tag m.body
  | 0x11 => .releaseClaim p m.tag m.body
  | 0x12 => .form p m.tag m.body
  | 0x13 => .reform p m.tag m.body
  | 0x14 => .disband p m.tag m.body
  | 0x15 => .setParams p m.tag m.body
  | 0x16 => .hold p m.tag m.body
  | 0x17 => .unhold p m.tag m.body
  | 0x18 => .clearFault p m.tag m.body
  | 0x19 => .queryConvoy p m.tag m.body
  | 0x20 => .setRoute p m.tag m.body
  | 0x21 => .start p m.tag m.body
  | 0x22 => .retry p m.tag m.body
  | 0x23 => .bar p m.tag m.body
  | 0x24 => .unbar p m.tag m.body
  | 0x25 => .clearSection p m.tag m.body
  | 0x26 => .setStock p m.tag m.body
  | 0x27 => .querySection p m.tag m.body
  | 0x30 => .aux p m.tag m.body
  | 0x31 => .setNotify p m.tag m.body
  | 0x38 => .allStop p m.tag m.body
  | 0x39 => .resumeAll p m.tag m.body
  | 0x3A => .layoutReset p m.tag m.body
  | _ => .unknownKind p m.kind m.tag m.body

/-- The message that spells a command that is a request, and the port it arrives at (Table 9.3). -/
def Instr.asMessage : Instr → Option (Port × Message)
  | .unknownKind p kind tag body => some (p, ⟨kind, tag, body⟩)
  | .readMap p tag body => some (p, ⟨0x01, tag, body⟩)
  | .editSection p tag body => some (p, ⟨0x02, tag, body⟩)
  | .editZone p tag body => some (p, ⟨0x03, tag, body⟩)
  | .editDetector p tag body => some (p, ⟨0x04, tag, body⟩)
  | .editGroup p tag body => some (p, ⟨0x05, tag, body⟩)
  | .editSettings p tag body => some (p, ⟨0x06, tag, body⟩)
  | .commitMap p tag body => some (p, ⟨0x07, tag, body⟩)
  | .queryDetectors p tag body => some (p, ⟨0x08, tag, body⟩)
  | .claim p tag body => some (p, ⟨0x10, tag, body⟩)
  | .releaseClaim p tag body => some (p, ⟨0x11, tag, body⟩)
  | .form p tag body => some (p, ⟨0x12, tag, body⟩)
  | .reform p tag body => some (p, ⟨0x13, tag, body⟩)
  | .disband p tag body => some (p, ⟨0x14, tag, body⟩)
  | .setParams p tag body => some (p, ⟨0x15, tag, body⟩)
  | .hold p tag body => some (p, ⟨0x16, tag, body⟩)
  | .unhold p tag body => some (p, ⟨0x17, tag, body⟩)
  | .clearFault p tag body => some (p, ⟨0x18, tag, body⟩)
  | .queryConvoy p tag body => some (p, ⟨0x19, tag, body⟩)
  | .setRoute p tag body => some (p, ⟨0x20, tag, body⟩)
  | .start p tag body => some (p, ⟨0x21, tag, body⟩)
  | .retry p tag body => some (p, ⟨0x22, tag, body⟩)
  | .bar p tag body => some (p, ⟨0x23, tag, body⟩)
  | .unbar p tag body => some (p, ⟨0x24, tag, body⟩)
  | .clearSection p tag body => some (p, ⟨0x25, tag, body⟩)
  | .setStock p tag body => some (p, ⟨0x26, tag, body⟩)
  | .querySection p tag body => some (p, ⟨0x27, tag, body⟩)
  | .aux p tag body => some (p, ⟨0x30, tag, body⟩)
  | .setNotify p tag body => some (p, ⟨0x31, tag, body⟩)
  | .allStop p tag body => some (p, ⟨0x38, tag, body⟩)
  | .resumeAll p tag body => some (p, ⟨0x39, tag, body⟩)
  | .layoutReset p tag body => some (p, ⟨0x3A, tag, body⟩)
  | .powerReset => none
  | .brownOut _ => none
  | .powerResetRelease _ => none
  | .endOfTheLoad _ => none
  | .attach _ => none
  | .detach _ => none
  | .interByteGap _ _ => none
  | .messageDiscarded _ => none
  | .commitEnd _ => none
  | .changeOfLogicalLevel _ _ => none
  | .checkTimerExpiry _ => none
  | .clearanceTimerExpiry _ => none
  | .settleTimerExpiry _ => none
  | .gapTimerTlag _ _ => none
  | .gapTimerTlost _ _ => none
  | .rampTick => none
  | .slotStart _ => none
  | .radioLost => none
  | .supplyLow _ => none
  | .supplyOk _ => none
  | .flushTimerExpiry _ => none
  | .batchStart _ => none
  | .replySendStart _ => none
  | .messageEnd _ => none

end Sys2Proof
end

