-- ==== Sys2Proof/Machine/State.lean ====
section
/-!
DEFINITION. The state of the part, block by block as Table 0.1 gives it, as plain data; the reasons a step could
stop; and the machine right after power reset.
-/

namespace Sys2Proof.Machine

open Sys2Proof

/-- The reasons the machine stops with a fault. The manual describes no event that stops the part: what goes wrong
on the road is a convoy fault (R105), which is state. No meaning raises a fault, so the type has no constructor;
leaving it empty is safe, since a claim about a fault would be about nothing. -/
inductive Fault where
  deriving DecidableEq, Repr

/-- The reasons a command has no meaning. -/
inductive Refusal where
  /-- Raised by an arm of `exec` whose command has no meaning yet (safe: nothing is claimed of it). No arm of this
  model raises it. -/
  | notModelled (mnemonic : String)
  deriving DecidableEq, Repr

/-! ### The Map Unit (Chapter 2) -/

/-- The store state of the Map Unit (Table 2.1), with the held power reset of R20 before LOADING. -/
inductive Phase where
  | held
  | loading
  | ready
  | committing
  deriving DecidableEq, Repr

/-- A commit in flight (R32): the port and tag its reply goes to, the snapshot, and the time it has left of its
400 ms. -/
structure Commit where
  port : Port
  tag : Byte
  snapshot : LayoutMap
  leftMs : Nat
  deriving DecidableEq, Repr

/-- The Map Unit: store state, map-invalid with the stage that failed (1 or 2, R24), the working map, the map store
beside it, a commit in flight, and the time left of the 60 ms of a load. -/
structure MapUnit where
  phase : Phase
  mapInvalid : Bool
  failedStage : Nat
  map : LayoutMap
  store : StoreContents
  commit : Option Commit
  loadLeftMs : Nat
  deriving DecidableEq, Repr

/-! ### The Detector Front End (Chapter 3) -/

/-- The conditioning states of Table 3.1. -/
inductive InputState where
  | disabled
  | idle
  | inactive
  | rising
  | active
  | falling
  deriving DecidableEq, Repr

/-- One detector input: the level of its line, its conditioning state and its check timer in ms, `none` while the
timer is stopped (R34). -/
structure Input where
  high : Bool
  cond : InputState
  timer : Option Nat
  deriving DecidableEq, Repr

/-- The Detector Front End: the inputs, the seen set of each port as an ascending list (R43), and whether the chord
is ASSERTED (R46). -/
structure FrontEnd where
  inputs : Tab 64 Input
  seen : PerPort (List Inp)
  chord : Bool
  deriving DecidableEq, Repr

/-! ### The Convoy Table (Chapter 4) -/

/-- The usage of a truck, with the convoy it names (R49). -/
inductive TruckUse where
  | free
  | active (c : Conv)
  | retiring (c : Conv)
  deriving DecidableEq, Repr

/-- A member of a convoy, with its length in cm (R51). -/
inductive Member where
  | truck (a : Addr) (len : Nat)
  | trailer (len : Nat)
  deriving DecidableEq, Repr

/-- The convoy states of Table 4.2, in its order. -/
inductive ConvoyState where
  | unformed
  | standing
  | rolling
  | waiting
  | arriving
  | arrived
  | held
  | stopped
  deriving DecidableEq, Repr

/-- The first six values of Table 4.4. -/
structure Params where
  vmax : Nat
  kp : Nat
  aacc : Nat
  adec : Nat
  look : Nat
  standGap : Nat
  deriving DecidableEq, Repr

/-- The last three values of Table 4.4, in ms: pending thresholds of a convoy, working thresholds of a gap timer. -/
structure Thresholds where
  tg : Nat
  tlag : Nat
  tlost : Nat
  deriving DecidableEq, Repr

/-- The kinds of convoy fault (R105). -/
inductive FaultKind where
  | overrun
  | intruded
  | count
  | lost
  deriving DecidableEq, Repr

/-- The fault field of a convoy record (Table 4.1). -/
structure ConvoyFault where
  kind : FaultKind
  sec : Sec
  member : Nat
  deriving DecidableEq, Repr

/-- The resume-to field of a convoy record (Table 4.1). -/
inductive Resume where
  | rolling
  | arriving
  deriving DecidableEq, Repr

/-- A convoy record, Table 4.1 (R53). -/
structure Convoy where
  owner : Option Port
  state : ConvoyState
  members : List Member
  params : Params
  thr : Thresholds
  fault : Option ConvoyFault
  resume : Option Resume
  deriving DecidableEq, Repr

/-- The default parameters of Table 4.4. -/
def Params.default : Params := ⟨40, 8, 2, 4, 2, 15⟩

/-- The default pending thresholds of Table 4.4. -/
def Thresholds.default : Thresholds := ⟨1000, 2000, 6000⟩

/-- An UNFORMED, unclaimed record with the defaults (R53, R70). -/
def Convoy.blank : Convoy := ⟨none, .unformed, [], Params.default, Thresholds.default, none, none⟩

/-- The Convoy Table: the truck table's usages and the twelve convoy records. -/
structure ConvoyTable where
  trucks : Tab 32 TruckUse
  convoys : Tab 12 Convoy
  deriving DecidableEq, Repr

/-! ### The Section Interlock (Chapter 5) -/

/-- What a request for road is for: a section, or the passage group a section names (R77). -/
inductive Resource where
  | sec (x : Sec)
  | grp (g : Grp)
  deriving DecidableEq, Repr

/-- The dynamic states of Table 5.1. A section has a holder in HELD and in no other state, and its clearance timer
runs, with the time left, in CLEARING and in no other state (R71, R88). -/
inductive SecState where
  | free
  | held (c : Conv)
  | clearing (leftMs : Nat)
  | parked
  | barred
  | blocked
  deriving DecidableEq, Repr

/-- A wait queue entry (R79). The order of arrival is its place in the queue. -/
structure Entry where
  conv : Conv
  sec : Sec
  index : Nat
  level : Nat
  deriving DecidableEq, Repr

/-- What the Interlock holds for one section (R71). -/
structure Section where
  dyn : SecState
  stock : Nat
  queue : List Entry
  deriving DecidableEq, Repr

/-- What the Interlock holds for one passage group (R72). -/
structure Group where
  holder : Option Conv
  queue : List Entry
  deriving DecidableEq, Repr

/-- The request state of a convoy (R77); QUEUED with the resource it waits for. -/
inductive ReqState where
  | idle
  | queued (r : Resource)
  | refused
  deriving DecidableEq, Repr

/-- The fork watch of a convoy (R83): the route index of the watched FORK, and the settle time left in SETTLING. -/
inductive Watch where
  | idle
  | awaiting (m : Nat)
  | settling (m : Nat) (leftMs : Nat)
  | effective (m : Nat)
  deriving DecidableEq, Repr

/-- What the Interlock holds for one convoy: its route, request state and fork watch. -/
structure Road where
  route : List Sec
  req : ReqState
  watch : Watch
  deriving DecidableEq, Repr

/-- No route, no request, no watch. -/
def Road.blank : Road := ⟨[], .idle, .idle⟩

/-- The Section Interlock. -/
structure Interlock where
  sections : Tab 48 Section
  groups : Tab 8 Group
  roads : Tab 12 Road
  deriving DecidableEq, Repr

/-! ### The Convoy Tracker (Chapter 6) -/

/-- A crossing record (R98): boundary index, count, gap timer in ms with its running flag, working thresholds,
lag-boost-done. -/
structure Crossing where
  j : Nat
  n : Nat
  timer : Nat
  running : Bool
  thr : Thresholds
  lagDone : Bool
  deriving DecidableEq, Repr

/-- The run states of a follower unit (Table 6.2). -/
inductive RunState where
  | run
  | downPending
  | down
  | startPending
  deriving DecidableEq, Repr

/-- The Tracker's items of one convoy (Table 6.1): follower unit u, 1 or more, stands at place u − 1 of `units`. -/
structure Track where
  head : Nat
  tail : Nat
  records : List Crossing
  brakeSeen : Bool
  units : List RunState
  deriving DecidableEq, Repr

/-- No items (R98). -/
def Track.blank : Track := ⟨0, 0, [], false, []⟩

/-! ### The Headway Governor (Chapter 7) -/

/-- Set speed S and commanded speed C of a truck (R115). -/
structure Speed where
  set : Nat
  cmd : Nat
  deriving DecidableEq, Repr

/-- The Headway Governor: the speeds, and the time left to the next ramp tick (R116). -/
structure Governor where
  speeds : Tab 32 Speed
  tickInMs : Nat
  deriving DecidableEq, Repr

/-! ### The Radio Dispatcher (Chapter 8) -/

/-- The Dispatcher's record of one truck (R133). A mark holds the number of the event that made it; marks are older
by event, and within one event by ascending address (R134). -/
structure RadioTruck where
  lastSent : Nat
  branch : Bool
  headLights : Bool
  hazard : Bool
  deadline : Option Nat
  stopMark : Option Nat
  branchMark : Option Nat
  deriving DecidableEq, Repr

/-- The record at power reset and at the move to FREE (R133). -/
def RadioTruck.blank : RadioTruck := ⟨0, false, false, false, none, none, none⟩

/-- A change field for a light (R140). -/
inductive LightChange where
  | leave
  | on
  | off
  deriving DecidableEq, Repr

/-- An aux queue entry (R141). -/
structure AuxEntry where
  addr : Addr
  head : LightChange
  hazard : LightChange
  horn : Bool
  coupler : Bool
  deriving DecidableEq, Repr

/-- The Radio Dispatcher. `frame` is what the radio line carries in the present slot; `period` is the effective
refresh period P (R139). -/
structure Dispatcher where
  trucks : Tab 32 RadioTruck
  auxQueues : PerPort (List AuxEntry)
  broadcasts : Nat
  notReady : Nat
  radioLost : Bool
  burst : Nat
  rest : Nat
  rampPointer : Addr
  auxPointer : Port
  period : Nat
  frame : Option (List Byte)
  slotInMs : Nat
  deriving DecidableEq, Repr

/-! ### The Console Ports (Chapter 9) -/

/-- The notice kinds of Table 9.5, in its order. -/
inductive NoticeKind where
  | halted
  | layoutReset
  | mapInvalid
  | overrun
  | intruded
  | count
  | resumed
  | supplyLow
  | stray
  | lost
  | deadlock
  | orphaned
  | supplyOk
  | waiting
  | refreshLate
  | granted
  | arrived
  deriving DecidableEq, Repr

/-- A notice record (R156). -/
structure Notice where
  kind : NoticeKind
  conv : Option Conv
  sec : Option Sec
  truck : Option Addr
  member : Option Nat
  detail : Nat
  deriving DecidableEq, Repr

/-- The flush timer of a port (R158, R159): stopped, running with the time left, or expired since the queue last
became non-empty. -/
inductive Flush where
  | stopped
  | running (leftMs : Nat)
  | expired
  deriving DecidableEq, Repr

/-- The transmitter of a port (R154): IDLE, or SENDING the bytes of a message with the time left on the line in µs.
`batch` says that the message is a notice batch message; `rest` holds the batch's later messages. -/
inductive Transmitter where
  | idle
  | sending (bytes : List Byte) (leftUs : Nat) (batch : Bool) (rest : List (List Notice))
  deriving DecidableEq, Repr

/-- A console port (Chapter 9). `present` is its present line, and `watchMs` what is left of the 50 ms for which the line
has to stay as it is (R146); `reserved` is the reply place that a commit in flight holds (R153); replies wait oldest
first. -/
structure PortState where
  present : Bool
  watchMs : Nat
  attached : Bool
  notifyOn : Bool
  notifyLevel : Nat
  lastConvoy : Option Conv
  receiver : Receiver
  replies : List Message
  reserved : Bool
  notices : List Notice
  flush : Flush
  tx : Transmitter
  batchSeq : Byte
  deriving DecidableEq, Repr

/-- The time for which a present line must stay as it is before the port follows it (R146). -/
def presentMs : Nat := 50

/-- The values of R155 for attach and power reset, with the present line, its watch and the present state given. -/
def PortState.fresh (present : Bool) (watchMs : Nat) (attached : Bool) : PortState :=
  ⟨present, watchMs, attached, true, 2, none, .hunt, [], false, [], .stopped, .idle, 0⟩

/-! ### The Halt Supervisor (Chapter 10) -/

/-- The items of Table 10.1; `supplyLow` is the supply state LOW. -/
structure HaltSupervisor where
  halted : Bool
  request : Bool
  chord : Bool
  radio : Bool
  supplyLow : Bool
  deriving DecidableEq, Repr

/-- The lines of the part that no block keeps for itself (Table 0.2): RESETN high, the supply in mV, and whether the
supply is in brown-out, which begins below 4.2 V and ends at 4.4 V (R166). -/
structure Pins where
  resetn : Bool
  supplyMv : Nat
  brownOut : Bool
  deriving DecidableEq, Repr

/-- A notice raised in the event in progress, with the ports that are its recipients (R156). -/
structure Raised where
  notice : Notice
  ports : List Port
  deriving DecidableEq, Repr

/-- The part. `pending` is the queue of commands; `now`, `eventNo`, `fresh` and `raised` are the model's own: the
time in ms, the number of the event in progress, the number of the next free choice, and the notices of the event in
progress, none between events. -/
structure State where
  pending : List Instr
  now : Nat
  eventNo : Nat
  fresh : Nat
  raised : List Raised
  pins : Pins
  mu : MapUnit
  dfe : FrontEnd
  cvt : ConvoyTable
  sil : Interlock
  tracks : Tab 12 Track
  hwg : Governor
  rds : Dispatcher
  ports : PerPort PortState
  hls : HaltSupervisor
  deriving DecidableEq, Repr

/-! ### Power reset -/

/-- A section record of the fall-back map after a failed check value (Table 2.2). -/
def SectionRec.fallback : SectionRec := ⟨.plain, 0, 20, 0, none, none, none, none, true⟩

/-- A profile of the fall-back map after a failed check value (Table 2.2). -/
def Profile.fallback : Profile := ⟨16, 8, 3, 7⟩

/-- The settings record of either fall-back map (R23). -/
def Settings.fallback : Settings := ⟨⟨0, 3, 3, 3⟩, 0, 400, 4⟩

/-- The fall-back map after a failed check value (R23, Table 2.2). -/
def LayoutMap.fallback : LayoutMap :=
  ⟨Tab.all 48 SectionRec.fallback, Tab.all 8 Profile.fallback, Tab.all 64 ⟨false, true⟩, Tab.all 16 3,
    Tab.all 8 (GroupList.of []), Settings.fallback⟩

/-- The Detector Front End at power reset (R48): timers stopped, seen sets empty, chord RELEASED. The lines keep the
levels `high`. -/
def FrontEnd.reset (high : Inp → Bool) : FrontEnd :=
  ⟨Tab.make 64 fun d => ⟨high d, .disabled, none⟩, PerPort.all [], false⟩

/-- The Convoy Table at power reset (R70). -/
def ConvoyTable.reset : ConvoyTable := ⟨Tab.all 32 .free, Tab.all 12 Convoy.blank⟩

/-- The Section Interlock at power reset (R96). -/
def Interlock.reset : Interlock := ⟨Tab.all 48 ⟨.free, 0, []⟩, Tab.all 8 ⟨none, []⟩, Tab.all 12 Road.blank⟩

/-- The Headway Governor at power reset (R115). -/
def Governor.reset : Governor := ⟨Tab.all 32 ⟨0, 0⟩, 50⟩

/-- The Radio Dispatcher at power reset (R144). -/
def Dispatcher.reset : Dispatcher :=
  ⟨Tab.all 32 RadioTruck.blank, PerPort.all [], 0, 0, false, 0, 0, 31, .d, 400, none, 0⟩

/-- The Halt Supervisor at power reset (Table 10.1). -/
def HaltSupervisor.reset : HaltSupervisor := ⟨false, false, false, false, false⟩

/-- The part right after power-up, in the held power reset of R20, before RESETN and the supply are up. What the
manual gives no value for is listed in notes/assumptions/1.md. -/
def State.reset : State where
  pending := []
  now := 0
  eventNo := 0
  fresh := 0
  raised := []
  pins := ⟨false, 0, true⟩
  mu := ⟨.held, false, 0, LayoutMap.fallback, .torn, none, 0⟩
  dfe := FrontEnd.reset fun _ => false
  cvt := ConvoyTable.reset
  sil := Interlock.reset
  tracks := Tab.all 12 Track.blank
  hwg := Governor.reset
  rds := Dispatcher.reset
  ports := PerPort.all (PortState.fresh false presentMs false)
  hls := HaltSupervisor.reset

end Sys2Proof.Machine
end

