-- ==== Sys2Proof/Machine/Sending.lean ====
section
/-!
DEFINITION. What a port's transmitter does (R153, R154, R159): notice records and batch messages (Tables 9.4 and 9.5), the
start of a reply and of a batch, and the look at its two queues that an idle transmitter takes. They stand before the
operations, because every event ends with that look.
-/

namespace Sys2Proof.Machine

open Sys2Proof

/-! ### Bytes -/

/-- A number as one byte. -/
def byte (n : Nat) : Byte := BitVec.ofNat 8 n

/-- A number as two bytes, the low-order byte first (R147). -/
def twoBytes (n : Nat) : List Byte := [byte (n % 256), byte (n / 256)]

/-- The weight of a bit that is set. -/
def flagBit (b : Bool) (i : Nat) : Nat := if b then 2 ^ i else 0

/-- The code of a holder: 0 for none. -/
def holderCode : Option Conv → Nat
  | none => 0
  | some c => convoyNumber c

/-! ### Notices (Tables 9.4 and 9.5) -/

/-- The severity a kind fixes (Table 9.5). -/
def NoticeKind.severity : NoticeKind → Nat
  | .halted => 0
  | .layoutReset => 0
  | .mapInvalid => 0
  | .overrun => 0
  | .intruded => 0
  | .count => 0
  | .resumed => 1
  | .supplyLow => 1
  | .stray => 1
  | .lost => 1
  | .deadlock => 1
  | .orphaned => 1
  | .supplyOk => 2
  | .waiting => 2
  | .refreshLate => 2
  | .granted => 3
  | .arrived => 3

/-- The notice kind codes of Table 9.5. -/
def NoticeKind.code : NoticeKind → Nat
  | .halted => 0x01
  | .layoutReset => 0x02
  | .mapInvalid => 0x03
  | .overrun => 0x04
  | .intruded => 0x05
  | .count => 0x06
  | .resumed => 0x07
  | .supplyLow => 0x08
  | .stray => 0x09
  | .lost => 0x0A
  | .deadlock => 0x0B
  | .orphaned => 0x0C
  | .supplyOk => 0x0D
  | .waiting => 0x0E
  | .refreshLate => 0x0F
  | .granted => 0x10
  | .arrived => 0x11

/-- A notice record of a batch message (Table 9.4). -/
def Notice.bytes (n : Notice) : List Byte :=
  [byte n.kind.code, byte (holderCode n.conv), byte (n.sec.elim 0xFF Fin.val), byte (n.truck.elim 0 radioAddress),
    byte (n.member.getD 0xFF)] ++ twoBytes n.detail

/-- The kind byte of a batch message (Table 9.1). -/
def batchKind : Byte := 0xFF

/-- A batch message: its header gives the number of records, and bit 7 says that another message follows (R147). -/
def batchMessage (tag : Byte) (ns : List Notice) (more : Bool) : Message :=
  ⟨batchKind, tag, byte (ns.length + flagBit more 7) :: ns.flatMap Notice.bytes⟩

/-! ### Messages on the line (R154) -/

/-- The time a message occupies the line, in µs: 40 for each of its 5 + length bytes (R154). -/
def lineUs (m : Message) : Nat := (5 + m.body.length) * 40

/-- The transmitter sends a message. -/
def Transmitter.start (m : Message) (batch : Bool) (rest : List (List Notice)) : Transmitter :=
  .sending m.bytes (lineUs m) batch rest

/-- The transmitter is IDLE. -/
def Transmitter.isIdle : Transmitter → Bool
  | .idle => true
  | .sending _ _ _ _ => false

/-- The number of queued notices that starts a batch (R159). -/
def batchSize : Nat := 4

/-- The batch start condition (R159). -/
def PortState.batchReady (p : PortState) : Bool :=
  !p.notices.isEmpty
    && (decide (batchSize ≤ p.notices.length) || p.flush == .expired || p.notices.any fun n => n.kind.severity == 0)

/-- The transmitter of an attached port is IDLE and a reply waits (R154). -/
def PortState.canReply (p : PortState) : Bool := p.attached && p.tx.isIdle && !p.replies.isEmpty

/-- The transmitter of an attached port is IDLE, no reply waits, and a batch may start (R154, R159). -/
def PortState.canBatch (p : PortState) : Bool := p.attached && p.tx.isIdle && p.replies.isEmpty && p.batchReady

/-- The most notices of one batch message (R159). -/
def batchMost : Nat := 8

/-- The batches a notice queue makes: one message of up to 8 notices, or two (R159). -/
def batchParts (ns : List Notice) : List (List Notice) :=
  if ns.length ≤ batchMost then [] else [ns.drop batchMost]

/-- A batch begins: every notice leaves the queue, the flush timer stops, and the first message is sent; the sequence
number rises with each message (R159). -/
def PortState.startBatch (q : PortState) : PortState :=
  let ns := q.notices
  let more := !(batchParts ns).isEmpty
  { q with
    notices := [], flush := .stopped, batchSeq := q.batchSeq + 1
    tx := .start (batchMessage q.batchSeq (ns.take batchMost) more) true (batchParts ns) }

/-- The oldest reply leaves the queue and is sent (R153, R154). -/
def PortState.startReply (q : PortState) : PortState :=
  match q.replies with
  | [] => q
  | m :: rest => { q with replies := rest, tx := .start m false [] }

/-- The look of an idle transmitter at its two queues (R154): it begins the oldest reply, or where none waits a batch
whose start condition holds. -/
def PortState.look (q : PortState) : PortState :=
  if q.canReply then q.startReply else if q.canBatch then q.startBatch else q

end Sys2Proof.Machine
end

