-- ==== Sys2Proof/Machine/Ops.lean ====
section
/-!
DEFINITION. The named operations on the state that every block uses: reading and updating one record of a block,
choices the manual leaves open, the beginning and end of an event with the notices raised in it (R156, R158), marks
and hard stops (R117, R134), and the count of ACTIVE trucks with the effective refresh period (R139).
-/

namespace Sys2Proof.Machine

open Sys2Proof

/-! ### One record of a block -/

/-- The working map. -/
def State.map (s : State) : LayoutMap := s.mu.map

/-- Section record `x` of the working map. -/
def State.sectionRec (s : State) (x : Sec) : SectionRec := s.mu.map.sections.nth x

/-- What the Interlock holds for section `x`. -/
def State.sec (s : State) (x : Sec) : Section := s.sil.sections.nth x

/-- What the Interlock holds for group `g`. -/
def State.grp (s : State) (g : Grp) : Group := s.sil.groups.nth g

/-- Route, request state and fork watch of convoy `c`. -/
def State.road (s : State) (c : Conv) : Road := s.sil.roads.nth c

/-- The record of convoy `c`. -/
def State.convoy (s : State) (c : Conv) : Convoy := s.cvt.convoys.nth c

/-- The usage of truck `a`. -/
def State.usage (s : State) (a : Addr) : TruckUse := s.cvt.trucks.nth a

/-- The Tracker's items of convoy `c`. -/
def State.track (s : State) (c : Conv) : Track := s.tracks.nth c

/-- The speeds of truck `a`. -/
def State.speed (s : State) (a : Addr) : Speed := s.hwg.speeds.nth a

/-- The Dispatcher's record of truck `a`. -/
def State.radio (s : State) (a : Addr) : RadioTruck := s.rds.trucks.nth a

/-- Console port `p`. -/
def State.port (s : State) (p : Port) : PortState := s.ports.nth p

/-- Detector input `d`. -/
def State.input (s : State) (d : Inp) : Input := s.dfe.inputs.nth d

/-- The level of port `p`, from the settings record (R12, R149 step 4). -/
def State.level (s : State) (p : Port) : Nat := s.mu.map.settings.levels.nth p

/-- Replace the working map. -/
def State.setMap (s : State) (m : LayoutMap) : State := { s with mu := { s.mu with map := m } }

/-- Update what the Interlock holds for section `x`. -/
def State.modSec (s : State) (x : Sec) (f : Section → Section) : State :=
  { s with sil := { s.sil with sections := s.sil.sections.put x (f (s.sil.sections.nth x)) } }

/-- Update what the Interlock holds for group `g`. -/
def State.modGrp (s : State) (g : Grp) (f : Group → Group) : State :=
  { s with sil := { s.sil with groups := s.sil.groups.put g (f (s.sil.groups.nth g)) } }

/-- Update route, request state and fork watch of convoy `c`. -/
def State.modRoad (s : State) (c : Conv) (f : Road → Road) : State :=
  { s with sil := { s.sil with roads := s.sil.roads.put c (f (s.sil.roads.nth c)) } }

/-- Update the record of convoy `c`. -/
def State.modConvoy (s : State) (c : Conv) (f : Convoy → Convoy) : State :=
  { s with cvt := { s.cvt with convoys := s.cvt.convoys.put c (f (s.cvt.convoys.nth c)) } }

/-- Set the usage of truck `a`. -/
def State.setUsage (s : State) (a : Addr) (u : TruckUse) : State :=
  { s with cvt := { s.cvt with trucks := s.cvt.trucks.put a u } }

/-- Update the Tracker's items of convoy `c`. -/
def State.modTrack (s : State) (c : Conv) (f : Track → Track) : State :=
  { s with tracks := s.tracks.put c (f (s.tracks.nth c)) }

/-- Update the speeds of truck `a`. -/
def State.modSpeed (s : State) (a : Addr) (f : Speed → Speed) : State :=
  { s with hwg := { s.hwg with speeds := s.hwg.speeds.put a (f (s.hwg.speeds.nth a)) } }

/-- Update the Dispatcher's record of truck `a`. -/
def State.modRadio (s : State) (a : Addr) (f : RadioTruck → RadioTruck) : State :=
  { s with rds := { s.rds with trucks := s.rds.trucks.put a (f (s.rds.trucks.nth a)) } }

/-- Update the Dispatcher but for its truck records. -/
def State.modRds (s : State) (f : Dispatcher → Dispatcher) : State := { s with rds := f s.rds }

/-- Update console port `p`. -/
def State.modPort (s : State) (p : Port) (f : PortState → PortState) : State :=
  { s with ports := s.ports.put p (f (s.ports.nth p)) }

/-- Update detector input `d`. -/
def State.modInput (s : State) (d : Inp) (f : Input → Input) : State :=
  { s with dfe := { s.dfe with inputs := s.dfe.inputs.put d (f (s.dfe.inputs.nth d)) } }

/-- Update the Halt Supervisor. -/
def State.modHls (s : State) (f : HaltSupervisor → HaltSupervisor) : State := { s with hls := f s.hls }

/-- Update the Map Unit. -/
def State.modMu (s : State) (f : MapUnit → MapUnit) : State := { s with mu := f s.mu }

/-- Apply `f` for each element in turn. -/
def State.forEach {α : Type} (s : State) (l : List α) (f : State → α → State) : State := l.foldl f s

/-- The layout work of the part runs: the load has ended, and no power reset is held (R20, R21). -/
def State.running (s : State) : Bool :=
  match s.mu.phase with
  | .held => false
  | .loading => false
  | .ready => true
  | .committing => true

/-! ### Choices the manual leaves open -/

/-- `l` in an order made by the free choices from number `k` on; `fuel` is the length of `l`. -/
def reorder {α : Type} (k : Nat) : (fuel : Nat) → List α → List α
  | 0, l => l
  | _, [] => []
  | _, [x] => [x]
  | fuel + 1, x :: y :: l =>
    let i := Config.choice k % (l.length + 2)
    ((x :: y :: l).getD i x) :: reorder (k + 1) fuel ((x :: y :: l).eraseIdx i)

/-- Take the elements of `l` "in any order": each order is a value of the free choices (notes/assumptions/4.md). A
list of one element has one order. -/
def State.anyOrder {α : Type} (s : State) (l : List α) : List α × State :=
  match l with
  | [] => ([], s)
  | [x] => ([x], s)
  | x :: y :: l => (reorder s.fresh (l.length + 2) (x :: y :: l), { s with fresh := s.fresh + (l.length + 2) })

/-! ### Notices -/

/-- Who a notice goes to (Table 9.5). -/
inductive Audience where
  | allPorts
  | levelZero
  | ownerOf (c : Conv)
  | onePort (p : Port)
  deriving DecidableEq, Repr

/-- The attached ports. -/
def State.attachedPorts (s : State) : List Port := Port.all.filter fun p => (s.port p).attached

/-- The attached ports at level 0 (R156). -/
def State.levelZeroPorts (s : State) : List Port := s.attachedPorts.filter fun p => s.level p == 0

/-- The recipients of a notice as they stand at the event of raising (R156). -/
def State.recipients (s : State) : Audience → List Port
  | .allPorts => s.attachedPorts
  | .levelZero => s.levelZeroPorts
  | .ownerOf c =>
    match (s.convoy c).owner with
    | some p => [p]
    | none => s.levelZeroPorts
  | .onePort p => [p]

/-- Raise a notice: its recipients are resolved now, and it joins their queues at the end of the event (R156,
R158). -/
def State.raise (s : State) (n : Notice) (who : Audience) : State :=
  { s with raised := s.raised ++ [⟨n, s.recipients who⟩] }

/-- A notice with no optional field but the detail. -/
def Notice.plain (k : NoticeKind) (detail : Nat := 0) : Notice := ⟨k, none, none, none, none, detail⟩

/-- A notice that carries a convoy and a section. -/
def Notice.ofConvoy (k : NoticeKind) (c : Conv) (x : Option Sec) (detail : Nat := 0) : Notice :=
  ⟨k, some c, x, none, none, detail⟩

/-- A port accepts a severity under a notify setting (R156). -/
def acceptsSeverity (enabled : Bool) (level severity : Nat) : Bool :=
  severity == 0 || (enabled && decide (severity ≤ level))

/-- The most notices a port's queue holds (R158). -/
def noticeRoom : Nat := 16

/-- The place of the oldest notice of a larger severity number than `sev` (R158). -/
def displacedAt (q : List Notice) (sev : Nat) : Option Nat := q.findIdx? fun n => decide (sev < n.kind.severity)

/-- An accepted notice arrives at a queue (R158). -/
def joinQueue (q : List Notice) (n : Notice) : List Notice :=
  if q.length < noticeRoom then q ++ [n]
  else
    match displacedAt q n.kind.severity with
    | some i => q.eraseIdx i ++ [n]
    | none => if n.kind.severity = 0 then q.tail ++ [n] else q

/-- A notice arrives at a port, which accepts or drops it; a notice that joins an empty queue starts the 40 ms flush
timer (R156, R158, R159). -/
def PortState.notify (p : PortState) (n : Notice) : PortState :=
  if acceptsSeverity p.notifyOn p.notifyLevel n.kind.severity then
    { p with notices := joinQueue p.notices n, flush := if p.notices.isEmpty then .running 40 else p.flush }
  else p

/-- A raised notice arrives at its recipients. -/
def State.deliverOne (s : State) (r : Raised) : State :=
  s.forEach r.ports fun s p => s.modPort p fun q => q.notify r.notice

/-- The raised notices that carry convoy `c`, or no convoy. -/
def raisedFor (l : List Raised) (c : Option Conv) : List Raised := l.filter fun r => r.notice.conv == c

/-- The notices of the event join the queues: in ascending order of the convoy they carry, those without a convoy
last, and in any order among those of one convoy or of none (R158). -/
def State.deliver (s : State) : State :=
  let l := s.raised
  let s := { s with raised := [] }
  s.forEach ((List.finRange 12).map some ++ [none]) fun s c =>
    let (ordered, s) := s.anyOrder (raisedFor l c)
    s.forEach ordered State.deliverOne

/-- Every idle transmitter looks at its queues (R154). -/
def State.looked (s : State) : State := { s with ports := s.ports.map PortState.look }

/-- One event: it has a number of its own, `f` is what it does; at its end its notices join the queues, and then the
transmitters that it leaves idle look at theirs (R154, R158; notes/assumptions/24.md). -/
def State.event (s : State) (f : State → State) : State := (f { s with eventNo := s.eventNo + 1 }).deliver.looked

/-! ### Members and units (R51) -/

/-- The member is a TRAILER. -/
def Member.isTrailer : Member → Bool
  | .truck _ _ => false
  | .trailer _ => true

/-- The address of a TRUCK. -/
def Member.addr? : Member → Option Addr
  | .truck a _ => some a
  | .trailer _ => none

/-- The length of a member in cm. -/
def Member.len : Member → Nat
  | .truck _ l => l
  | .trailer l => l

/-- The number of TRAILERs of a list. -/
def trailerCount (ms : List Member) : Nat := ms.countP Member.isTrailer

/-- The addresses of the TRUCKs of a list, in order. -/
def truckAddrs (ms : List Member) : List Addr := ms.filterMap Member.addr?

/-- The unit count: the number of TRUCKs (R51). -/
def unitCount (ms : List Member) : Nat := (truckAddrs ms).length

/-- A unit: its truck, the member index of the truck, and that of its last vehicle. -/
structure Unit where
  truck : Addr
  first : Nat
  last : Nat
  deriving DecidableEq, Repr

/-- The units of a member list, front to back; `i` is the index of its first member. -/
def unitsFrom (i : Nat) : List Member → List Unit
  | [] => []
  | .truck a _ :: rest => ⟨a, i, i + (rest.takeWhile Member.isTrailer).length⟩ :: unitsFrom (i + 1) rest
  | .trailer _ :: rest => unitsFrom (i + 1) rest

/-- The units of a member list, unit 0 first (R51). -/
def unitsOf (ms : List Member) : List Unit := unitsFrom 0 ms

/-- The unit that member `k` belongs to. -/
def unitIndex (ms : List Member) (k : Nat) : Nat := unitCount (ms.take (k + 1)) - 1

/-- The length of a convoy in cm: its members, and the stand gap between consecutive units (R52). -/
def convoyLength (ms : List Member) (standGap : Nat) : Nat :=
  (ms.map Member.len).sum + (unitCount ms - 1) * standGap

/-- The members of convoy `c`. -/
def State.members (s : State) (c : Conv) : List Member := (s.convoy c).members

/-- N, the number of members of convoy `c`. -/
def State.memberCount (s : State) (c : Conv) : Nat := (s.members c).length

/-- The units of convoy `c`. -/
def State.unitsFor (s : State) (c : Conv) : List Unit := unitsOf (s.members c)

/-- The leader of convoy `c`: the truck of unit 0. -/
def State.leader? (s : State) (c : Conv) : Option Addr := (truckAddrs (s.members c)).head?

/-- The truck of unit `u` of convoy `c`. -/
def State.unitTruck? (s : State) (c : Conv) (u : Nat) : Option Addr := (truckAddrs (s.members c))[u]?

/-- The run state of follower unit `u`, 1 or more, of convoy `c`. -/
def State.unitState? (s : State) (c : Conv) (u : Nat) : Option RunState :=
  if u = 0 then none else (s.track c).units[u - 1]?

/-- Set the run state of follower unit `u` of convoy `c`. -/
def State.setUnit (s : State) (c : Conv) (u : Nat) (r : RunState) : State :=
  if u = 0 then s else s.modTrack c fun t => { t with units := t.units.set (u - 1) r }

/-- Every follower unit of convoy `c` becomes DOWN. -/
def State.unitsDown (s : State) (c : Conv) : State :=
  s.modTrack c fun t => { t with units := List.replicate (s.unitsFor c).tail.length .down }

/-- A formed convoy: any state but UNFORMED (R53). -/
def State.formed (s : State) (c : Conv) : Bool := (s.convoy c).state != .unformed

/-- The convoys 1 to 12. -/
def allConvoys : List Conv := List.finRange 12

/-- The sections 0 to 47. -/
def allSections : List Sec := List.finRange 48

/-- The truck addresses 1 to 32, ascending. -/
def allTrucks : List Addr := List.finRange 32

/-! ### ACTIVE trucks and the refresh period -/

/-- The truck is ACTIVE. -/
def TruckUse.isActive : TruckUse → Bool
  | .free => false
  | .active _ => true
  | .retiring _ => false

/-- The truck is RETIRING. -/
def TruckUse.isRetiring : TruckUse → Bool
  | .free => false
  | .active _ => false
  | .retiring _ => true

/-- Truck `a` is ACTIVE. -/
def State.isActive (s : State) (a : Addr) : Bool := (s.usage a).isActive

/-- The ACTIVE trucks, ascending. -/
def State.activeTrucks (s : State) : List Addr := allTrucks.filter s.isActive

/-- A number of ms rounded up to a multiple of 10. -/
def roundUpTen (n : Nat) : Nat := (n + 9) / 10 * 10

/-- P: the greater of the configured period and 20 ms for each ACTIVE truck, rounded up to a multiple of 10 ms
(R139). -/
def refreshPeriod (configured activeCount : Nat) : Nat := roundUpTen (max configured (20 * activeCount))

/-- The Dispatcher recomputes P (R139). -/
def State.recomputePeriod (s : State) : State :=
  s.modRds fun r => { r with period := refreshPeriod s.map.settings.refresh s.activeTrucks.length }

/-! ### Marks and hard stops -/

/-- Mark a STOP frame for truck `a`; a mark that stands keeps its order (R134). -/
def State.markStop (s : State) (a : Addr) : State :=
  s.modRadio a fun r => { r with stopMark := some (r.stopMark.getD s.eventNo) }

/-- Mark a BRANCH frame for truck `a`; a mark that stands keeps its order, and none is made for a truck that is not
ACTIVE (R134). -/
def State.markBranch (s : State) (a : Addr) : State :=
  if s.isActive a then s.modRadio a fun r => { r with branchMark := some (r.branchMark.getD s.eventNo) } else s

/-- A hard stop of truck `a`: both speeds 0 at once, a STOP frame marked (R117). -/
def State.hardStop (s : State) (a : Addr) : State := (s.modSpeed a fun _ => ⟨0, 0⟩).markStop a

/-- A hard stop of every truck of convoy `c`. -/
def State.hardStopAll (s : State) (c : Conv) : State := s.forEach (truckAddrs (s.members c)) State.hardStop

/-- A truck leaves its convoy: it becomes RETIRING, is hard-stopped, its lights and deadline are cleared, its BRANCH
mark is removed, and every aux entry that names it leaves its queue (R50, R133, R141). -/
def State.retire (s : State) (a : Addr) : State :=
  match s.usage a with
  | .active c =>
    let s := (s.setUsage a (.retiring c)).hardStop a
    let s := s.modRadio a fun r => { r with headLights := false, hazard := false, deadline := none, branchMark := none }
    s.modRds fun r => { r with auxQueues := r.auxQueues.map fun q => q.filter fun e => e.addr != a }
  | .free => s
  | .retiring _ => s

/-- A FREE truck becomes ACTIVE in convoy `c`: speeds 0, its radio record as R133 gives, due at once (R60, R62,
R115). -/
def State.activate (s : State) (c : Conv) (a : Addr) : State :=
  let s := (s.setUsage a (.active c)).modSpeed a fun _ => ⟨0, 0⟩
  s.modRadio a fun _ => { RadioTruck.blank with deadline := some s.now }

/-! ### Positions (R98) -/

/-- The crossing record of boundary `j`. -/
def Track.record? (t : Track) (j : Nat) : Option Crossing := t.records.find? fun r => r.j == j

/-- Update the crossing record of boundary `j`. -/
def Track.modRecord (t : Track) (j : Nat) (f : Crossing → Crossing) : Track :=
  { t with records := t.records.map fun r => if r.j = j then f r else r }

/-- The position of member `k`: the highest boundary whose count is above `k`, else the tail (R98). -/
def Track.position (t : Track) (k : Nat) : Nat :=
  t.records.foldl (fun best r => if k < r.n then max best r.j else best) t.tail

/-- Update the crossing record of boundary `j` of convoy `c`. -/
def State.modRecord (s : State) (c : Conv) (j : Nat) (f : Crossing → Crossing) : State :=
  s.modTrack c fun t => t.modRecord j f

/-- A gap timer started from 0 with the pending thresholds of convoy `c`, lag-boost-done clear (R101, R102, R112). -/
def State.startedTimer (s : State) (c : Conv) (r : Crossing) : Crossing :=
  { r with timer := 0, running := true, thr := (s.convoy c).thr, lagDone := false }

/-- The section at route index `i` of convoy `c`. -/
def State.routeAt (s : State) (c : Conv) (i : Nat) : Option Sec := (s.road c).route[i]?

/-- Section `x` is HELD by convoy `c`. -/
def State.holds (s : State) (c : Conv) (x : Sec) : Bool := (s.sec x).dyn == .held c

end Sys2Proof.Machine
end

