-- ==== Sys2Proof/Machine/Lookup.lean ====
section
/-!
DEFINITION. The questions the other blocks ask of the map (Chapter 1): detector roles (R15), successors and the
choice at a FORK (R16), the values of a zone (R7, R17), check times (R10), chord inputs (R12, R45), the structural
validity conditions of Table 1.5 with the two checks that apply them (R13, R14), and the fall-back map of a load
that fails its structure stage (R23).
-/

namespace Sys2Proof.Machine

open Sys2Proof

/-! ### Section numbers and zone values -/

/-- The section a number names, if there is one. -/
def secOf (n : Nat) : Option Sec := if h : n < 48 then some ⟨n, h⟩ else none

/-- The profile that serves a zone: the zone number divided by 2 (R6). -/
def profileNo (z : Zone) : ProfileNo := ⟨z.1 / 2, by omega⟩

/-- The profile of a section's zone (R17). -/
def LayoutMap.profileOf (m : LayoutMap) (x : Sec) : Profile := m.profiles.nth (profileNo (m.sections.nth x).zone)

/-- The clearance hold time of a hold code (R7). -/
def holdTime : Fin 4 → Nat
  | 0 => 250
  | 1 => 750
  | 2 => 1500
  | 3 => 3000

/-- The settle time of a fork settle code (R7). -/
def settleTime (code : Fin 8) : Nat := code.1 * 50

/-- The clearance hold time of a section's zone (R17). -/
def LayoutMap.holdTimeOf (m : LayoutMap) (x : Sec) : Nat := holdTime (m.profileOf x).holdCode

/-- The sections a group lists (R11). -/
def LayoutMap.listed (m : LayoutMap) (g : Grp) : List Sec := (m.groupList g).filterMap secOf

/-- The clearance hold time of a group: the longest among the zones of the sections it lists (R17). -/
def LayoutMap.groupHoldTime (m : LayoutMap) (g : Grp) : Nat := (m.listed g).foldl (fun t x => max t (m.holdTimeOf x)) 0

/-- The resource a request for section `x` is for: the group it names, else the section (R11, R77). -/
def LayoutMap.resourceOf (m : LayoutMap) (x : Sec) : Resource :=
  match (m.sections.nth x).group with
  | some g => .grp g
  | none => .sec x

/-! ### Successors (R16) -/

/-- `t` is a successor of `x` (R16). -/
def LayoutMap.isSuccessor (m : LayoutMap) (x t : Sec) : Bool :=
  (m.sections.nth x).succ0 == some t.1 || (m.sections.nth x).succ1 == some t.1

/-- The choice at FORK `x` that leads to `t`: `false` for successor 0, `true` for successor 1 (R16). -/
def LayoutMap.choiceTo (m : LayoutMap) (x t : Sec) : Option Bool :=
  if (m.sections.nth x).succ0 = some t.1 then some false
  else if (m.sections.nth x).succ1 = some t.1 then some true
  else none

/-- Section `x` is a FORK. -/
def LayoutMap.isFork (m : LayoutMap) (x : Sec) : Bool := (m.sections.nth x).kind == .fork

/-- Section `x` is a BAY. -/
def LayoutMap.isBay (m : LayoutMap) (x : Sec) : Bool := (m.sections.nth x).kind == .bay

/-! ### Detector inputs -/

/-- The filter group of an input (R10). -/
def filterOf (d : Inp) : FilterNo := ⟨d.1 / 4, by omega⟩

/-- The four inputs of a filter group, ascending (R10). -/
def inputsOfFilter (f : FilterNo) : List Inp := (List.finRange 64).filter fun d => filterOf d == f

/-- The check time of a filter code in ms; 0 is off (R10). -/
def checkTime : Fin 8 → Nat
  | 0 => 0
  | 1 => 1
  | 2 => 2
  | 3 => 5
  | 4 => 10
  | 5 => 20
  | 6 => 50
  | 7 => 100

/-- The filter code of an input's group. -/
def LayoutMap.filterCode (m : LayoutMap) (d : Inp) : Fin 8 := m.filters.nth (filterOf d)

/-- The check time of an input (R34). -/
def LayoutMap.checkTimeOf (m : LayoutMap) (d : Inp) : Nat := checkTime (m.filterCode d)

/-- The chord inputs of a chord selection (R12, R45). -/
def chordInputs : Nat → List Inp
  | 0 => []
  | 1 => [60, 61]
  | 2 => [60, 61, 62]
  | _ => [60, 61, 62, 63]

/-- The role of a detector (R15). -/
inductive Role where
  | entry (x : Sec)
  | brake (x : Sec)
  | none
  deriving DecidableEq, Repr

/-- The lowest-numbered section whose record has a property. -/
def LayoutMap.lowest (m : LayoutMap) (f : SectionRec → Bool) : Option Sec :=
  allSections.find? fun x => f (m.sections.nth x)

/-- The role of detector `d`, by the five steps of R15. -/
def LayoutMap.roleOf (m : LayoutMap) (d : Inp) : Role :=
  match m.lowest fun r => !r.barred && r.entry == d with
  | some x => .entry x
  | none =>
  match m.lowest fun r => !r.barred && r.brake == some d with
  | some x => .brake x
  | none =>
  match m.lowest fun r => r.barred && r.entry == d with
  | some x => .entry x
  | none =>
  match m.lowest fun r => r.barred && r.brake == some d with
  | some x => .brake x
  | none => .none

/-! ### Structural validity (Table 1.5) -/

/-- A section number field names a section that exists, or is absent. -/
def succInRange : Option Nat → Bool
  | some n => decide (n < 48)
  | none => true

/-- The successors match the kind (Table 1.3). -/
def kindMatches (r : SectionRec) : Bool :=
  match r.kind with
  | .plain => r.succ0.isSome && r.succ1.isNone
  | .fork => r.succ0.isSome && r.succ1.isSome && r.succ0 != r.succ1
  | .bay => r.succ1.isNone
  | .code3 => false

/-- Conditions 1 to 7 of Table 1.5 on a section's own record, by number. -/
def ownCondition (r : SectionRec) : Nat → Bool
  | 1 => r.kind != .code3 && decide (20 ≤ r.length) && decide (r.length ≤ 2000)
  | 2 => decide (r.entry.1 ≤ 59)
  | 3 => r.brake.all fun b => decide (b.1 ≤ 59)
  | 4 => succInRange r.succ0 && succInRange r.succ1
  | 5 => kindMatches r
  | 6 => r.kind != .bay || r.brake.isSome
  | 7 => r.kind != .bay || r.group.isNone
  | _ => true

/-- Two sections use one detector in two roles (condition 8). -/
def detectorClash (r t : SectionRec) : Bool :=
  r.entry == t.entry || (r.brake.isSome && r.brake == t.brake) || t.brake == some r.entry || r.brake == some t.entry

/-- Section `t` is counted in service when `x` is: it is `x`, or its bar flag is clear (R14). -/
def LayoutMap.inServiceWith (m : LayoutMap) (x t : Sec) : Bool := t == x || !(m.sections.nth t).barred

/-- The other in-service sections whose detector uses clash with those of `x`, ascending (condition 8). -/
def LayoutMap.clashes (m : LayoutMap) (x : Sec) : List Sec :=
  allSections.filter fun t => t != x && !(m.sections.nth t).barred
    && detectorClash (m.sections.nth x) (m.sections.nth t)

/-- Condition 8 for `x`: its own two detectors differ, and no other in-service section's clash with them. -/
def LayoutMap.condition8 (m : LayoutMap) (x : Sec) : Bool :=
  (m.sections.nth x).brake != some (m.sections.nth x).entry && (m.clashes x).isEmpty

/-- Condition 9 for `x`: no detector of it is a chord input. -/
def LayoutMap.condition9 (m : LayoutMap) (x : Sec) : Bool :=
  !(chordInputs m.settings.chord).any fun d => (m.sections.nth x).entry == d || (m.sections.nth x).brake == some d

/-- The groups condition 10 concerns for `x`: the one it names and those that list it (R14). -/
def LayoutMap.groupsOf (m : LayoutMap) (x : Sec) : List Grp :=
  (List.finRange 8).filter fun g => (m.sections.nth x).group == some g || (m.groupList g).contains x.1

/-- Section `t` breaks the agreement of group `g`: listed without naming it, or in service and naming it without
being listed (condition 10). -/
def LayoutMap.breaks (m : LayoutMap) (x : Sec) (g : Grp) (t : Sec) : Bool :=
  ((m.groupList g).contains t.1 && (m.sections.nth t).group != some g)
    || (m.inServiceWith x t && (m.sections.nth t).group == some g && !(m.groupList g).contains t.1)

/-- Condition 10 for `x`, counted in service: every group concerned agrees with its sections. A listed number above
47 names no section, and so fails it. -/
def LayoutMap.condition10 (m : LayoutMap) (x : Sec) : Bool :=
  (m.groupsOf x).all fun g => (m.groupList g).all (fun n => decide (n < 48)) && allSections.all fun t => !m.breaks x g t

/-- Condition `n` of 1 to 10 as it concerns section `x`, counted in service (R14). -/
def LayoutMap.condition (m : LayoutMap) (x : Sec) (n : Nat) : Bool :=
  if n = 8 then m.condition8 x
  else if n = 9 then m.condition9 x
  else if n = 10 then m.condition10 x
  else ownCondition (m.sections.nth x) n

/-- The other section a failed condition involves: for 8 the lowest-numbered one that clashes, for 10 the
lowest-numbered other section that breaks the agreement (R14). -/
def LayoutMap.otherSection (m : LayoutMap) (x : Sec) (n : Nat) : Option Sec :=
  if n = 8 then (m.clashes x).head?
  else if n = 10 then allSections.find? fun t => t != x && (m.groupsOf x).any fun g => m.breaks x g t
  else none

/-- The single-section check of `x`: the lowest-numbered condition of 1 to 10 that fails, with the other section
involved; `none` when the check passes (R14). -/
def LayoutMap.singleCheck (m : LayoutMap) (x : Sec) : Option (Nat × Option Sec) :=
  (([1, 2, 3, 4, 5, 6, 7, 8, 9, 10] : List Nat).find? fun n => !m.condition x n).map fun n => (n, m.otherSection x n)

/-- Condition 11 for a profile. -/
def Profile.valid (p : Profile) : Bool :=
  decide (4 ≤ p.speedCap) && decide (p.speedCap ≤ 63) && decide (1 ≤ p.approachCap) && decide (p.approachCap ≤ 31)
    && decide (p.approachCap ≤ p.speedCap)

/-- Condition 12 for the settings record. -/
def Settings.valid (t : Settings) : Bool :=
  (Port.all.all fun p => decide (t.levels.nth p ≤ 3)) && decide (t.chord ≤ 3) && decide (100 ≤ t.refresh)
    && decide (t.refresh ≤ 1000) && t.refresh % 10 == 0 && decide (t.threshold ≤ 15)

/-- The whole-map check (R14): conditions 1 to 10 for every in-service section, 11 and 12. A group concerned by
condition 10 lists an in-service section or is named by one, so it is reached through that section. -/
def LayoutMap.valid (m : LayoutMap) : Bool :=
  (allSections.all fun x => (m.sections.nth x).barred || (m.singleCheck x).isNone)
    && ((List.finRange 8).all fun p => (m.profiles.nth p).valid) && m.settings.valid

/-! ### The stored image and the fall-back maps (R22, R23) -/

/-- The check value of an image: the sum of its bytes modulo 65536, exclusive-ORed with 0xA5A5 (R22). -/
def checkValue (m : LayoutMap) : Nat := ((Config.imageBytes m).map BitVec.toNat).sum % 65536 ^^^ 0xA5A5

/-- A speed cap brought into 4 to 63 (R19). -/
def clampSpeedCap (n : Nat) : Nat := min (max n 4) 63

/-- An approach cap brought into 1 to 31 and to at most the speed cap (R19). -/
def clampApproachCap (n speedCap : Nat) : Nat := min (min (max n 1) 31) speedCap

/-- The caps of a profile clamped as EDIT_ZONE clamps them (R19). -/
def Profile.clamped (p : Profile) : Profile :=
  { p with
    speedCap := clampSpeedCap p.speedCap
    approachCap := clampApproachCap p.approachCap (clampSpeedCap p.speedCap) }

/-- A stored section record in the structure-failed fall-back map: out-of-range fields replaced, bar flag set
(Table 2.2). -/
def SectionRec.repaired (r : SectionRec) : SectionRec :=
  { kind := if r.kind = .code3 then .plain else r.kind
    zone := r.zone
    length := if 20 ≤ r.length ∧ r.length ≤ 2000 then r.length else 20
    entry := if r.entry.1 ≤ 59 then r.entry else 0
    brake := r.brake.filter fun b => decide (b.1 ≤ 59)
    succ0 := r.succ0.filter fun n => decide (n < 48)
    succ1 := r.succ1.filter fun n => decide (n < 48)
    group := r.group
    barred := true }

/-- A list without its later copies of a number. -/
def withoutRepeats : List Nat → List Nat
  | [] => []
  | n :: l => n :: (withoutRepeats l).filter fun k => k != n

/-- The fall-back map after a failed structure stage (R23, Table 2.2). -/
def LayoutMap.repaired (m : LayoutMap) : LayoutMap where
  sections := m.sections.map SectionRec.repaired
  profiles := m.profiles.map Profile.clamped
  detectors := m.detectors.map fun d => { d with enabled := false }
  filters := m.filters
  groups := m.groups.map fun l => GroupList.of (withoutRepeats (l.numbers.filter fun n => decide (n < 48)))
  settings := Settings.fallback

/-- What the load installs, and the stage that failed: 0 none, 1 check value, 2 structure (R22 to R24). -/
def loaded (store : StoreContents) (readable : Bool) : LayoutMap × Nat :=
  match store with
  | .torn => (LayoutMap.fallback, 1)
  | .image m chk =>
    if !readable || chk != checkValue m then (LayoutMap.fallback, 1)
    else if m.valid then (m, 0) else (m.repaired, 2)

end Sys2Proof.Machine
end

