-- ==== Sys2Proof/Machine/Governor.lean ====
section
/-!
DEFINITION. The Headway Governor (Chapter 7): caps (R118), the leader target (R122, R123), the follower
computation (R124 to R126), the lag boost (R127), the restart of a follower (R128), the ramp (R116) and the two
lowerings (R119, R120). Whether the next section is effective (R83, R122) is read here from the Interlock.
-/

namespace Sys2Proof.Machine

open Sys2Proof

/-! ### Reading the other blocks -/

/-- The section route[head] of convoy `c`. -/
def State.headSec? (s : State) (c : Conv) : Option Sec := s.routeAt c (s.track c).head

/-- The section route[head + 1] of convoy `c`. -/
def State.nextSec? (s : State) (c : Conv) : Option Sec := s.routeAt c ((s.track c).head + 1)

/-- The head of convoy `c` is the last route entry. -/
def State.headIsLast (s : State) (c : Conv) : Bool := (s.track c).head + 1 == (s.road c).route.length

/-- The fork watch makes the FORK at index `m` effective. -/
def Watch.isEffective (w : Watch) (m : Nat) : Bool := w == .effective m

/-- route[head + 1] of convoy `c` exists, is held by `c`, and its grant is effective: at once for a section that is
not a FORK, by the fork watch for a FORK (R83, R122). -/
def State.nextEffective (s : State) (c : Conv) : Bool :=
  match s.nextSec? c with
  | none => false
  | some x => s.holds c x && (!s.map.isFork x || (s.road c).watch.isEffective ((s.track c).head + 1))

/-- Section `x` has a brake detector. -/
def State.hasBrake (s : State) (x : Sec) : Bool := (s.sectionRec x).brake.isSome

/-- The approach cap of route[head]'s zone. -/
def State.approachCap (s : State) (c : Conv) : Nat :=
  match s.headSec? c with
  | some x => (s.map.profileOf x).approachCap
  | none => 0

/-- The commanded speed of the truck of unit `u` of convoy `c`. -/
def State.unitCmd (s : State) (c : Conv) (u : Nat) : Nat :=
  match s.unitTruck? c u with
  | some a => (s.speed a).cmd
  | none => 0

/-! ### Caps and targets -/

/-- The cap that the supply puts on every set speed while it is LOW (R118). -/
def supplyCap : Nat := 24

/-- Vcap of section `x` for convoy `c` (R118). -/
def State.vcap (s : State) (c : Conv) (x : Sec) : Nat :=
  let v := min (s.convoy c).params.vmax (s.map.profileOf x).speedCap
  if s.hls.supplyLow then min v supplyCap else v

/-- Row 1 of Table 7.1 names the state. -/
def ConvoyState.targetZero : ConvoyState → Bool
  | .unformed => true
  | .standing => true
  | .rolling => false
  | .waiting => false
  | .arriving => false
  | .arrived => true
  | .held => true
  | .stopped => true

/-- The leader target of convoy `c` as for state `st`: the first row of Table 7.1 whose condition holds (R122). -/
def State.leaderTarget (s : State) (c : Conv) (st : ConvoyState) : Nat :=
  match s.headSec? c with
  | none => 0
  | some x =>
    if s.hls.halted || st.targetZero then 0
    else if s.headIsLast c && (s.track c).brakeSeen then 0
    else if !s.nextEffective c && ((s.track c).brakeSeen || !s.hasBrake x) then 0
    else if !s.nextEffective c then min (s.vcap c x) (s.approachCap c)
    else s.vcap c x

/-- A target applied to a leader (R123). -/
def State.applyTarget (s : State) (a : Addr) (target : Nat) : State :=
  if 0 < target then s.modSpeed a fun v => { v with set := target }
  else if 0 < (s.speed a).set ∨ 0 < (s.speed a).cmd then s.hardStop a
  else s

/-- The leader target of convoy `c`, computed as for state `st`, is applied to its leader. -/
def State.retarget (s : State) (c : Conv) (st : ConvoyState) : State :=
  match s.leader? c with
  | some a => s.applyTarget a (s.leaderTarget c st)
  | none => s

/-- The leader target of convoy `c` is recomputed for the state it holds, where `c` is formed (R122). -/
def State.recomputeTarget (s : State) (c : Conv) : State :=
  if s.formed c then s.retarget c (s.convoy c).state else s

/-! ### Followers -/

/-- Stages 1 to 5 of the follower computation (R125): the raw speed from gap, target gap, speed of the truck ahead
and gain. -/
def followerRaw (g tg vp kp : Nat) : Int :=
  let e : Int := (g : Int) - (tg : Int)
  let corr : Int := (e * (kp : Int)).tdiv 1000
  let raw : Int := (vp : Int) + corr
  let raw : Int := if g < tg / 2 then ((vp / 2 : Nat) : Int) else raw
  if vp = 0 then 0 else raw

/-- Stages 6 and 7 (R126): the floor, then the cap and the range 0 to 63. -/
def followerLimit (raw : Int) (vp cap : Nat) : Nat :=
  let r := raw.toNat
  let r := if 1 ≤ vp ∧ r < 1 then 1 else r
  min (min r cap) 63

/-- The set speed a follower computation gives (R124 to R126). -/
def followerSpeed (g tg vp kp cap : Nat) : Nat := followerLimit (followerRaw g tg vp kp) vp cap

/-- The follower computation for truck `a`, member `k` of convoy `c`, at boundary `j` with gap `g` and working target
gap `tg`; 0 while HALTED (R124 to R126). -/
def State.followerComputation (s : State) (c : Conv) (a : Addr) (k j g tg : Nat) : State :=
  let vp := s.unitCmd c (unitIndex (s.members c) (k - 1))
  let cap := match s.routeAt c j with
    | some x => s.vcap c x
    | none => 0
  let v := if s.hls.halted then 0 else followerSpeed g tg vp (s.convoy c).params.kp cap
  s.modSpeed a fun sp => { sp with set := v }

/-- The section that the truck of unit `u` of convoy `c` most recently entered (R118). -/
def State.unitSec? (s : State) (c : Conv) (u : Nat) : Option Sec :=
  match (s.unitsFor c)[u]? with
  | some w => s.routeAt c ((s.track c).position w.first)
  | none => none

/-- The lag boost of unit `u` of convoy `c`: the truck's S rises by Aacc up to the cap of its section, and is never
lowered; while HALTED it stays (R127). -/
def State.lagBoost (s : State) (c : Conv) (u : Nat) : State :=
  match s.unitTruck? c u, s.unitSec? c u with
  | some a, some x =>
    if s.hls.halted then s
    else s.modSpeed a fun v => { v with set := max v.set (min (v.set + (s.convoy c).params.aacc) (s.vcap c x)) }
  | _, _ => s

/-- The set speed a restart with a reference gives the truck of unit `u` of convoy `c` (R128). -/
def State.restartSpeed (s : State) (c : Conv) (u ref : Nat) : Nat :=
  match s.unitSec? c u with
  | some x => if s.hls.halted then 0 else min ref (s.vcap c x)
  | none => 0

/-! ### The ramp -/

/-- One ramp step of C toward S (R116). -/
def rampStep (aacc adec : Nat) (v : Speed) : Speed :=
  if v.cmd < v.set then { v with cmd := v.cmd + min aacc (v.set - v.cmd) }
  else { v with cmd := v.cmd - min adec (v.cmd - v.set) }

/-- The ramp tick for one truck: an ACTIVE truck moves by its convoy's Aacc and Adec (R116). -/
def State.rampTruck (s : State) (a : Addr) : State :=
  match s.usage a with
  | .active c => s.modSpeed a (rampStep (s.convoy c).params.aacc (s.convoy c).params.adec)
  | .free => s
  | .retiring _ => s

/-! ### Lowerings -/

/-- S of truck `a` lowered to a limit (R119, R120). -/
def State.lowerTo (s : State) (limit : Nat) (a : Addr) : State :=
  s.modSpeed a fun v => { v with set := min v.set limit }

/-- A new Vmax of convoy `c`: every S above it is lowered, then the leader target is recomputed (R119). -/
def State.vmaxChanged (s : State) (c : Conv) : State :=
  let s := s.forEach (truckAddrs (s.members c)) fun s a => s.lowerTo (s.convoy c).params.vmax a
  s.recomputeTarget c

/-- The leader target of every formed convoy is recomputed (R120). -/
def State.recomputeAllTargets (s : State) : State := s.forEach allConvoys State.recomputeTarget

/-- The report that the supply became LOW, to the Governor (R120). -/
def State.supplyLowered (s : State) : State :=
  let s := s.forEach s.activeTrucks fun s a => s.lowerTo supplyCap a
  s.recomputeAllTargets

end Sys2Proof.Machine
end

