-- ==== Sys2Proof/Machine/Units.lean ====
section
/-!
DEFINITION. The follower units and the branch bits of the Convoy Tracker (Chapter 6): stand-down (R107), the steps
after a passage (R108), the restart procedure (R109), units made DOWN by an outside hard stop (R110), and the
branch bit of a truck (R113). They stand before the Interlock, whose grants restart a waiting convoy.
-/

namespace Sys2Proof.Machine

open Sys2Proof

/-- The convoy's leader stands stopped for want of road or at its end: WAITING or ARRIVING (R108). -/
def ConvoyState.runsIn : ConvoyState → Bool
  | .unformed => false
  | .standing => false
  | .rolling => false
  | .waiting => true
  | .arriving => true
  | .arrived => false
  | .held => false
  | .stopped => false

/-- The numbers of the follower units of convoy `c`, 1 and up. -/
def State.followers (s : State) (c : Conv) : List Nat := List.range' 1 ((s.unitsFor c).length - 1)

/-- The last vehicle of unit `u` of convoy `c` has passed the entry detector of route[head] (R107). -/
def State.lastAtHead (s : State) (c : Conv) (u : Nat) : Bool :=
  match (s.unitsFor c)[u]? with
  | some w => (s.track c).position w.last == (s.track c).head
  | none => false

/-- Unit `u` becomes DOWN and its truck is hard-stopped. -/
def State.standUnit (s : State) (c : Conv) (u : Nat) : State :=
  let s := s.setUnit c u .down
  match s.unitTruck? c u with
  | some a => s.hardStop a
  | none => s

/-- The stand-down of one unit (R107). -/
def State.standDownUnit (s : State) (c : Conv) (u : Nat) : State :=
  if s.lastAtHead c u then s.standUnit c u
  else if s.unitState? c u = some .run then s.setUnit c u .downPending
  else s

/-- The stand-down of the follower units at the entry of WAITING or ARRIVING from ROLLING (R107). -/
def State.standDown (s : State) (c : Conv) : State := s.forEach (s.followers c) fun s u => s.standDownUnit c u

/-- The unit ahead of follower unit `u` is DOWN while the convoy is WAITING or ARRIVING; unit 0 counts as DOWN then
(R108). -/
def State.aheadDown (s : State) (c : Conv) (u : Nat) : Bool :=
  (s.convoy c).state.runsIn && (u == 1 || s.unitState? c (u - 1) == some .down)

/-- The reference speed of a restart (R108, R128). -/
def State.restartReference (s : State) (c : Conv) (u : Nat) : Nat :=
  if s.aheadDown c u then s.approachCap c else s.unitCmd c (u - 1)

/-- The run state of a unit restarted to a speed above 0 (R108). -/
def ConvoyState.restarted (st : ConvoyState) : RunState := if st.runsIn then .downPending else .run

/-- Unit `u` restarts: its truck's set speed is the lesser of the reference and the caps of its section, and the
unit leaves START-PENDING if that is above 0 (R108 step 2, R128). -/
def State.restartUnit (s : State) (c : Conv) (u : Nat) : State :=
  let v := s.restartSpeed c u (s.restartReference c u)
  let s := match s.unitTruck? c u with
    | some a => s.modSpeed a fun sp => { sp with set := v }
    | none => s
  if 0 < v then s.setUnit c u (s.convoy c).state.restarted else s

/-- Step 1 of R108: a DOWN-PENDING unit whose last vehicle made a qualifying passage stands down. The passage of
member `k` at boundary `j` qualifies in WAITING at any entry detector and in ARRIVING at that of route[head]
(R107). -/
def State.standDownStep (s : State) (c : Conv) (k j u : Nat) : State :=
  let last := match (s.unitsFor c)[u]? with
    | some w => w.last == k
    | none => false
  let place := match (s.convoy c).state with
    | .waiting => true
    | .arriving => j == (s.track c).head
    | .unformed => false
    | .standing => false
    | .rolling => false
    | .arrived => false
    | .held => false
    | .stopped => false
  if s.unitState? c u = some .downPending && last && place then s.standUnit c u else s

/-- Step 2 of R108: a START-PENDING unit restarts at the passage of the vehicle ahead of its truck, or behind a unit
that is DOWN. -/
def State.restartStep (s : State) (c : Conv) (k u : Nat) : State :=
  let aheadPassed := match (s.unitsFor c)[u - 1]? with
    | some w => w.last == k
    | none => false
  if s.unitState? c u = some .startPending && (aheadPassed || s.aheadDown c u) then s.restartUnit c u else s

/-- Step 3 of R108: a unit in RUN whose truck passes while the truck ahead is stopped becomes START-PENDING. -/
def State.stoppedAheadStep (s : State) (c : Conv) (k u : Nat) : State :=
  let passed := match (s.unitsFor c)[u]? with
    | some w => w.first == k
    | none => false
  if s.unitState? c u = some .run && passed && s.unitCmd c (u - 1) == 0 then s.setUnit c u .startPending else s

/-- The three steps of R108 for one unit, at the passage of member `k` at boundary `j`. -/
def State.unitSteps (s : State) (c : Conv) (k j u : Nat) : State :=
  ((s.standDownStep c k j u).restartStep c k u).stoppedAheadStep c k u

/-- The unit run states respond to the passage of member `k` at boundary `j`, in unit order from the front (R108). -/
def State.afterPassage (s : State) (c : Conv) (k j : Nat) : State :=
  s.forEach (s.followers c) fun s u => s.unitSteps c k j u

/-- Step 3 of R109 for one unit, by the resulting convoy state. It sets run states alone: it stops no truck and marks no
STOP frame, at an UNHOLD into WAITING too (notes/assumptions/34.md). -/
def State.resetUnit (s : State) (c : Conv) (u : Nat) : State :=
  match (s.convoy c).state, s.unitState? c u with
  | .rolling, some .downPending => s.setUnit c u .run
  | .rolling, some .down => s.setUnit c u .startPending
  | .waiting, some r => if s.lastAtHead c u then s.setUnit c u .down else if r = .down then s.setUnit c u .startPending else s
  | .arriving, some r => if s.lastAtHead c u then s.setUnit c u .down else if r = .down then s.setUnit c u .startPending else s
  | _, _ => s

/-- Step 4 of R109 for one unit. -/
def State.runInUnit (s : State) (c : Conv) (u : Nat) : State :=
  if s.unitState? c u = some .startPending && s.aheadDown c u then s.restartUnit c u else s

/-- Steps 3 and 4 of the restart procedure (R109). -/
def State.restartUnits (s : State) (c : Conv) : State :=
  let s := s.forEach (s.followers c) fun s u => s.resetUnit c u
  s.forEach (s.followers c) fun s u => s.runInUnit c u

/-- A convoy's state, when another block or the Tracker reports the transition it owns (R54). -/
def State.setState (s : State) (c : Conv) (st : ConvoyState) : State := s.modConvoy c fun r => { r with state := st }

/-- The restart procedure at a grant-effective report or at RESUME_ALL (R109): the leader target is computed; a
WAITING convoy becomes ROLLING if it is above 0; the units are set by the resulting state. -/
def State.restart (s : State) (c : Conv) : State :=
  let target := s.leaderTarget c (s.convoy c).state
  let s := s.retarget c (s.convoy c).state
  let s := if (s.convoy c).state = .waiting ∧ 0 < target then s.setState c .rolling else s
  s.restartUnits c

/-- The Interlock tells the Governor and the Tracker that route[head + 1] is held and effective: the leader target
is recomputed, and a WAITING convoy restarts (R84). -/
def State.tellEffective (s : State) (c : Conv) : State :=
  if (s.convoy c).state = .waiting then s.restart c else s.recomputeTarget c

/-! ### Branch bits (R113) -/

/-- The first route index at or beyond `j` that is a FORK, below `j + fuel`. -/
def State.forkFrom (s : State) (c : Conv) (j : Nat) : (fuel : Nat) → Option Nat
  | 0 => none
  | fuel + 1 =>
    match s.routeAt c j with
    | none => none
    | some x => if s.map.isFork x then some j else s.forkFrom c (j + 1) fuel

/-- The index of the first FORK on the route of convoy `c` at or beyond index `j`. -/
def State.firstFork (s : State) (c : Conv) (j : Nat) : Option Nat := s.forkFrom c j (s.road c).route.length

/-- The branch bit a truck at boundary or position `j` of convoy `c` needs, if the rule gives one (R113). -/
def State.branchFor (s : State) (c : Conv) (j : Nat) : Option Bool :=
  match s.firstFork c j with
  | none => none
  | some m =>
    match s.routeAt c m, s.routeAt c (m + 1) with
    | some x, some t => s.map.choiceTo x t
    | _, _ => none

/-- The branch bit of truck `a` of convoy `c` is brought up to date for boundary or position `j`; a changed bit
marks a BRANCH frame (R113, R134). -/
def State.updateBranch (s : State) (c : Conv) (a : Addr) (j : Nat) : State :=
  match s.branchFor c j with
  | none => s
  | some b => if (s.radio a).branch = b then s else (s.modRadio a fun r => { r with branch := b }).markBranch a

/-- The branch bits of every truck of convoy `c`, each from its position, as at START and SET_ROUTE (R113). -/
def State.updateAllBranches (s : State) (c : Conv) : State :=
  s.forEach (s.unitsFor c) fun s w => s.updateBranch c w.truck ((s.track c).position w.first)

end Sys2Proof.Machine
end

