-- ==== Sys2Proof/Machine/Interlock.lean ====
section
/-!
DEFINITION. The Section Interlock (Chapter 5): requests for road with the deadlock check (R77, R78), wait queues
(R79), grants (R80, R81), the fork watch (R83 to R85), release and clearance (R86 to R89), and what the Interlock
does at a fault (R90).
-/

namespace Sys2Proof.Machine

open Sys2Proof

/-! ### Resources -/

/-- The holder of section `x` (R71). -/
def State.secHolder (s : State) (x : Sec) : Option Conv :=
  match (s.sec x).dyn with
  | .free => none
  | .held c => some c
  | .clearing _ => none
  | .parked => none
  | .barred => none
  | .blocked => none

/-- The holder of a resource (R78). -/
def State.holder (s : State) : Resource → Option Conv
  | .sec x => s.secHolder x
  | .grp g => (s.grp g).holder

/-- The wait queue of a resource (R79). -/
def State.queue (s : State) : Resource → List Entry
  | .sec x => (s.sec x).queue
  | .grp g => (s.grp g).queue

/-- Update the wait queue of a resource. -/
def State.modQueue (s : State) (r : Resource) (f : List Entry → List Entry) : State :=
  match r with
  | .sec x => s.modSec x fun q => { q with queue := f q.queue }
  | .grp g => s.modGrp g fun q => { q with queue := f q.queue }

/-- Every section and every passage group. -/
def allResources : List Resource := allSections.map .sec ++ (List.finRange 8).map .grp

/-- FREE or PARKED: PARKED for a BAY with stock above 0 (R71). -/
def State.restState (s : State) (x : Sec) : SecState := if s.map.isBay x && decide (0 < (s.sec x).stock) then .parked else .free

/-- Section `x` becomes FREE or PARKED. -/
def State.toRest (s : State) (x : Sec) : State := s.modSec x fun q => { q with dyn := s.restState x }

/-- Section `x` becomes FREE or PARKED if it is HELD by `c`. -/
def State.giveBack (s : State) (c : Conv) (x : Sec) : State := if s.holds c x then s.toRest x else s

/-- An immediate release of a resource held by `c` (R89), its grant scan left to follow. -/
def State.releaseNow (s : State) (c : Conv) (r : Resource) : State :=
  match r with
  | .sec x => s.giveBack c x
  | .grp g => (s.modGrp g fun q => { q with holder := none }).forEach (s.map.listed g) fun s x => s.giveBack c x

/-! ### The fork watch (R83 to R85) -/

/-- The route index a watch concerns. -/
def Watch.index? : Watch → Option Nat
  | .idle => none
  | .awaiting m => some m
  | .settling m _ => some m
  | .effective m => some m

/-- The watch is ended, its settle timer stopped (R85). -/
def State.cancelWatch (s : State) (c : Conv) : State := s.modRoad c fun r => { r with watch := .idle }

/-- The FORK a watch of convoy `c` begins on, when the conditions of R83 hold: the leader's next fork, beyond the
head, held by `c`. -/
def State.watchable (s : State) (c : Conv) : Option Nat :=
  match s.firstFork c (s.track c).head with
  | none => none
  | some m =>
    match s.routeAt c m with
    | none => none
    | some x => if (s.track c).head < m && s.holds c x then some m else none

/-- The fork watch of convoy `c` is evaluated (R83): a watch begins in AWAITING FRAME and marks a BRANCH frame for the
leader (R84); a watch already on that fork goes on. -/
def State.evalWatch (s : State) (c : Conv) : State :=
  match s.watchable c with
  | none => s
  | some m =>
    if (s.road c).watch.index? = some m then s
    else
      let s := s.modRoad c fun r => { r with watch := .awaiting m }
      match s.leader? c with
      | some a => s.markBranch a
      | none => s

/-- The watch of convoy `c` at index `m` enters EFFECTIVE; the Governor and the Tracker are told when it is the next
section (R84). -/
def State.watchEffective (s : State) (c : Conv) (m : Nat) : State :=
  let s := s.modRoad c fun r => { r with watch := .effective m }
  if m = (s.track c).head + 1 then s.tellEffective c else s

/-- The fork settle time of the section at route index `m` of convoy `c` (R7, R17). -/
def State.settleTimeAt (s : State) (c : Conv) (m : Nat) : Nat :=
  match s.routeAt c m with
  | some x => settleTime (s.map.profileOf x).settleCode
  | none => 0

/-- A frame to the leader of convoy `c` is reported sent: a watch in AWAITING FRAME enters SETTLING, or EFFECTIVE at
once when the settle time is 0 (R84). -/
def State.watchFrame (s : State) (c : Conv) : State :=
  match (s.road c).watch with
  | .awaiting m =>
    let t := s.settleTimeAt c m
    if t = 0 then s.watchEffective c m else s.modRoad c fun r => { r with watch := .settling m t }
  | .idle => s
  | .settling _ _ => s
  | .effective _ => s

/-! ### Requests for road (R77 to R79) -/

/-- The first index of `l` (numbered from `i`) whose section convoy `c` does not hold. -/
def State.firstUnheld (s : State) (c : Conv) (i : Nat) : List Sec → Option (Nat × Sec)
  | [] => none
  | x :: l => if s.holds c x then s.firstUnheld c (i + 1) l else some (i, x)

/-- The next index k of convoy `c` with its section: the first route index beyond the head that `c` does not hold
(R77). -/
def State.nextIndex (s : State) (c : Conv) : Option (Nat × Sec) :=
  s.firstUnheld c ((s.track c).head + 1) ((s.road c).route.drop ((s.track c).head + 1))

/-- A convoy in the state may make a request (R77). -/
def ConvoyState.mayRequest : ConvoyState → Bool
  | .unformed => false
  | .standing => false
  | .rolling => true
  | .waiting => true
  | .arriving => false
  | .arrived => false
  | .held => true
  | .stopped => false

/-- The request convoy `c` makes when the four conditions of R77 hold. -/
def State.wanted (s : State) (c : Conv) : Option (Nat × Sec) :=
  if (s.convoy c).state.mayRequest && (s.road c).req == .idle then
    match s.nextIndex c with
    | some (k, x) => if k ≤ (s.track c).head + (s.convoy c).params.look then some (k, x) else none
    | none => none
  else none

/-- The chain of waits from resource `r` closes at convoy `c` within `fuel` convoys (R78). -/
def State.chainCloses (s : State) (c : Conv) : (fuel : Nat) → Resource → Bool
  | 0, _ => false
  | fuel + 1, r =>
    match s.holder r with
    | none => false
    | some d =>
      if d = c then true
      else
        match (s.road d).req with
        | .queued y => s.chainCloses c fuel y
        | .idle => false
        | .refused => false

/-- The most convoys of a chain that the deadlock check examines (R78). -/
def chainLimit : Nat := 12

/-- The level an entry of convoy `c` records: its owner's, 3 for an orphan (R79). -/
def State.entryLevel (s : State) (c : Conv) : Nat :=
  match (s.convoy c).owner with
  | some p => s.level p
  | none => 3

/-- An entry joins behind every entry of a lower or equal level and ahead of every entry of a higher one (R79). -/
def insertEntry (e : Entry) : List Entry → List Entry
  | [] => [e]
  | q :: l => if q.level ≤ e.level then q :: insertEntry e l else e :: q :: l

/-- The entry of convoy `c` leaves its queue, and its request state becomes IDLE (R79). -/
def State.withdraw (s : State) (c : Conv) : State :=
  match (s.road c).req with
  | .queued r => (s.modQueue r fun q => q.filter fun e => e.conv != c).modRoad c fun w => { w with req := .idle }
  | .idle => s
  | .refused => s.modRoad c fun w => { w with req := .idle }

/-- A request refused by the deadlock check: REFUSED, with a DEADLOCK notice carrying the section and the holder of
the resource (R78). -/
def State.refuse (s : State) (c : Conv) (x : Sec) (r : Resource) : State :=
  let s := s.modRoad c fun w => { w with req := .refused }
  s.raise (Notice.ofConvoy .deadlock c (some x) ((s.holder r).elim 0 convoyNumber)) (.ownerOf c)

/-- A request that joins the queue of its resource: QUEUED (R77, R79). -/
def State.join (s : State) (c : Conv) (k : Nat) (x : Sec) (r : Resource) : State :=
  let s := s.modQueue r (insertEntry ⟨c, x, k, s.entryLevel c⟩)
  s.modRoad c fun w => { w with req := .queued r }

/-! ### Granting (R80, R81) -/

/-- The entry's recorded index is the last of its convoy's route (R80). -/
def State.endsHere (s : State) (e : Entry) : Bool := e.index + 1 == (s.road e.conv).route.length

/-- Every number of a group's list names a section that is FREE (R80). -/
def State.groupFree (s : State) (g : Grp) : Bool :=
  (s.map.groupList g).all fun n =>
    match secOf n with
    | some x => (s.sec x).dyn == .free
    | none => false

/-- The resource is grantable to the entry (R80). -/
def State.eligible (s : State) (r : Resource) (e : Entry) : Bool :=
  match r with
  | .sec x =>
    match (s.sec x).dyn with
    | .free => true
    | .parked => s.endsHere e
    | .held _ => false
    | .clearing _ => false
    | .barred => false
    | .blocked => false
  | .grp g =>
    (s.grp g).holder.isNone && !(s.map.groupList g).isEmpty && s.groupFree g
      && (s.map.groupList g).contains e.sec.1

/-- The entry a grant scan of `r` grants to: none while HALTED, else the first eligible one (R81, R82). -/
def State.scanChoice (s : State) (r : Resource) : Option Entry :=
  if s.hls.halted then none else (s.queue r).find? fun e => s.eligible r e

/-- Section `x` becomes HELD by convoy `c`. -/
def State.holdSec (s : State) (c : Conv) (x : Sec) : State := s.modSec x fun q => { q with dyn := .held c }

/-- The resource becomes HELD by convoy `c`: for a group, with every section on its list (R81). -/
def State.holdResource (s : State) (c : Conv) : Resource → State
  | .sec x => s.holdSec c x
  | .grp g => (s.modGrp g fun q => { q with holder := some c }).forEach (s.map.listed g) fun s x => s.holdSec c x

/-- A grant to an entry, up to the convoy's next request (R81): the entry leaves the queue, the resource is held, the
owner is told, the fork watch is evaluated, and the Governor and the Tracker are told if the next section is now
effective. -/
def State.grantTo (s : State) (r : Resource) (e : Entry) : State :=
  let s := s.modQueue r fun q => q.filter fun f => f.conv != e.conv
  let s := s.modRoad e.conv fun w => { w with req := .idle }
  let s := s.holdResource e.conv r
  let s := s.raise (Notice.ofConvoy .granted e.conv (some e.sec)) (.ownerOf e.conv)
  let s := s.evalWatch e.conv
  if s.nextEffective e.conv then s.tellEffective e.conv else s

/-- A grant scan of `r` (R81), with what follows a grant: the convoy's next request, which may join another queue and
lead to a scan of it. Each grant makes a section HELD, so `fuel` above 48 is never used up. -/
def State.scanFuel (s : State) : (fuel : Nat) → Resource → State
  | 0, _ => s
  | fuel + 1, r =>
    match s.scanChoice r with
    | none => s
    | some e =>
      let s := s.grantTo r e
      match s.wanted e.conv with
      | none => s
      | some (k, x) =>
        let y := s.map.resourceOf x
        if s.chainCloses e.conv chainLimit y then s.refuse e.conv x y
        else (s.join e.conv k x y).scanFuel fuel y

/-- More grants than one event can make: each takes one of the 48 sections from unheld to held. -/
def scanLimit : Nat := 64

/-- A grant scan of a resource (R81). -/
def State.scan (s : State) (r : Resource) : State := s.scanFuel scanLimit r

/-- Convoy `c` makes its request for road, if the conditions of R77 hold: the deadlock check, then REFUSED, or the
queue and a grant scan. -/
def State.request (s : State) (c : Conv) : State :=
  match s.wanted c with
  | none => s
  | some (k, x) =>
    let y := s.map.resourceOf x
    if s.chainCloses c chainLimit y then s.refuse c x y else (s.join c k x y).scan y

/-- The scan after section `x` became FREE or PARKED: of the section, or of its group if it names one (R88). -/
def State.scanFor (s : State) (x : Sec) : State := s.scan (s.map.resourceOf x)

/-- Scans of several resources, one at a time, in any order (R82, R89). A scan of a resource whose queue is empty
does nothing, so only the others are ordered. -/
def State.scanAll (s : State) (rs : List Resource) : State :=
  let (ordered, s) := s.anyOrder (rs.filter fun r => !(s.queue r).isEmpty)
  s.forEach ordered State.scan

/-! ### Release by the tail (R86, R87) -/

/-- Section `x` passes from HELD by `c` to CLEARING with a hold time. -/
def State.clearFor (s : State) (c : Conv) (ms : Nat) (x : Sec) : State :=
  if s.holds c x then s.modSec x fun q => { q with dyn := .clearing ms } else s

/-- The release of group `g` held by `c` (R87). -/
def State.releaseGroup (s : State) (c : Conv) (g : Grp) : State :=
  let ms := s.map.groupHoldTime g
  (s.modGrp g fun q => { q with holder := none }).forEach (s.map.listed g) fun s x => s.clearFor c ms x

/-- The route of convoy `c` names group `g` at an index above `j` (R86). -/
def State.groupAbove (s : State) (c : Conv) (g : Grp) (j : Nat) : Bool :=
  ((s.road c).route.drop (j + 1)).any fun x => (s.sectionRec x).group == some g

/-- The tail of convoy `c` leaves route[j] (R86). -/
def State.tailLeft (s : State) (c : Conv) (j : Nat) : State :=
  match s.routeAt c j with
  | none => s
  | some x =>
    match (s.sectionRec x).group with
    | none => s.clearFor c (s.map.holdTimeOf x) x
    | some g =>
      if s.groupAbove c g j then s
      else if (s.grp g).holder = some c then s.releaseGroup c g
      else s

/-- A section is reported occupied by something unaccounted for (R88). -/
def State.occupied (s : State) (x : Sec) : State :=
  match (s.sec x).dyn with
  | .free => s.modSec x fun q => { q with dyn := .blocked }
  | .parked => s.modSec x fun q => { q with dyn := .blocked }
  | .clearing _ => s.modSec x fun q => { q with dyn := .blocked }
  | .held _ => s
  | .barred => s
  | .blocked => s

/-! ### Granted-ahead road (R89, R90) -/

/-- The groups convoy `c` holds. -/
def State.heldGroups (s : State) (c : Conv) : List Grp := (List.finRange 8).filter fun g => (s.grp g).holder == some c

/-- Section `x` is HELD by `c` and names no group, so that it is released by itself. -/
def State.holdsAlone (s : State) (c : Conv) (x : Sec) : Bool := s.holds c x && (s.sectionRec x).group.isNone

/-- The resources convoy `c` holds ahead of its head: sections of no group beyond the head, and groups every route
entry of which lies beyond the head (R89). -/
def State.aheadOf (s : State) (c : Conv) : List Resource :=
  let route := (s.road c).route
  let beyond := route.drop ((s.track c).head + 1)
  let upTo := route.take ((s.track c).head + 1)
  (beyond.filter (s.holdsAlone c)).map .sec
    ++ ((s.heldGroups c).filter fun g => !upTo.any fun x => (s.sectionRec x).group == some g).map .grp

/-- Everything convoy `c` holds (R63). -/
def State.everythingOf (s : State) (c : Conv) : List Resource :=
  (allSections.filter (s.holdsAlone c)).map .sec ++ (s.heldGroups c).map .grp

/-- Immediate release of several resources, their scans left to follow (R89). -/
def State.releaseList (s : State) (c : Conv) (rs : List Resource) : State := s.forEach rs fun s r => s.releaseNow c r

/-- What the Interlock does at the fault of convoy `c` (R90): the queue entry withdrawn, the request state IDLE, the
watch cancelled, the granted-ahead road released, its scans left to follow. -/
def State.interlockFault (s : State) (c : Conv) : State :=
  ((s.withdraw c).cancelWatch c).releaseList c (s.aheadOf c)

/-- The head of convoy `c` has advanced (R102 step 4): the watch on the entered fork ends, the watch is evaluated, and
the next request is made (R77, R83). -/
def State.headAdvanced (s : State) (c : Conv) : State :=
  let s := if (s.road c).watch.index? = some (s.track c).head then s.cancelWatch c else s
  (s.evalWatch c).request c

end Sys2Proof.Machine
end

