-- ==== Sys2Proof/Machine/Tracker.lean ====
section
/-!
DEFINITION. The Convoy Tracker's passages (Chapter 6): attribution of entry passages (R99, R100), member and leader
crossings (R101, R102), overruns, strays and faults (R103 to R105), brake passages (R106), WAITING and ARRIVED
(R106, R107), and the two points of a gap timer (R111).
-/

namespace Sys2Proof.Machine

open Sys2Proof

/-! ### Faults (R105) -/

/-- The notice of a fault kind. -/
def FaultKind.notice : FaultKind → NoticeKind
  | .overrun => .overrun
  | .intruded => .intruded
  | .count => .count
  | .lost => .lost

/-- What the fault of convoy `c` changes before any grant scan: nothing in a convoy already STOPPED (R105). -/
def State.stopFaulty (s : State) (c : Conv) (f : ConvoyFault) : State :=
  if (s.convoy c).state = .stopped then s
  else
    let s := s.modConvoy c fun r => { r with fault := some f, state := .stopped, resume := none }
    ((s.hardStopAll c).unitsDown c).interlockFault c

/-- The road that a fault of convoy `c` releases (R90, R105). -/
def State.faultRoad (s : State) (c : Conv) : List Resource :=
  if (s.convoy c).state = .stopped then [] else s.aheadOf c

/-- The notice of a fault; `other` is the other convoy's number, 0 for none (R105). -/
def State.faultNotice (s : State) (c : Conv) (f : ConvoyFault) (other : Nat) : State :=
  s.raise ⟨f.kind.notice, some c, some f.sec, none, some f.member, other⟩ (.ownerOf c)

/-- Convoy `c` suffers a fault; the scans of what it releases follow its changes (R105, notes/assumptions/13.md). -/
def State.fault (s : State) (c : Conv) (f : ConvoyFault) (other : Nat := 0) : State :=
  ((s.stopFaulty c f).scanAll (s.faultRoad c)).faultNotice c f other

/-- The count of the record of convoy `d` at section `x`, 0 where it has none (R103, R104). -/
def State.countAt (s : State) (d : Conv) (x : Sec) : Nat :=
  match (s.track d).records.find? fun r => s.routeAt d r.j == some x with
  | some r => r.n
  | none => 0

/-! ### State changes (R106, R107) -/

/-- The WAITING notice of convoy `c`, carrying route[head + 1] (R106). -/
def State.raiseWaiting (s : State) (c : Conv) (who : Audience) : State :=
  s.raise (Notice.ofConvoy .waiting c (s.nextSec? c)) who

/-- Convoy `c`, ROLLING, becomes WAITING: its leader is hard-stopped, its units stand down, its owner is told (R102,
R106, R107). -/
def State.enterWaiting (s : State) (c : Conv) : State :=
  let s := s.setState c .waiting
  let s := match s.leader? c with
    | some a => s.hardStop a
    | none => s
  (s.standDown c).raiseWaiting c (.ownerOf c)

/-- Every follower unit of convoy `c` that is not DOWN stands down (R107). -/
def State.standRest (s : State) (c : Conv) : State :=
  s.forEach (s.followers c) fun s u => if s.unitState? c u = some .down then s else s.standUnit c u

/-- An ARRIVING convoy whose tail equals its head becomes ARRIVED, every follower unit DOWN, with the ARRIVED notice
(R107, notes/assumptions/33.md). -/
def State.checkArrived (s : State) (c : Conv) : State :=
  if (s.convoy c).state = .arriving ∧ (s.track c).tail = (s.track c).head then
    ((s.setState c .arrived).standRest c).raise (Notice.ofConvoy .arrived c (s.headSec? c)) (.ownerOf c)
  else s

/-- Convoy `c`, ROLLING, becomes ARRIVING: its leader is hard-stopped, its units stand down, and it is ARRIVED at
once if its tail equals its head (R106, R107). -/
def State.enterArriving (s : State) (c : Conv) : State :=
  let s := s.setState c .arriving
  let s := match s.leader? c with
    | some a => s.hardStop a
    | none => s
  (s.standDown c).checkArrived c

/-! ### Crossings (R99 to R102) -/

/-- The record expects a member (R99). -/
def State.expects (s : State) (c : Conv) (r : Crossing) : Bool :=
  let t := s.track c
  decide (r.n < s.memberCount c)
    && (decide (r.j ≤ t.tail + 1) || (match t.record? (r.j - 1) with
      | some q => decide (r.n < q.n)
      | none => false))

/-- The record of convoy `c` at section `x` that expects a member (R100 case 1). -/
def State.expecting? (s : State) (c : Conv) (x : Sec) : Option Crossing :=
  (s.track c).records.find? fun r => s.routeAt c r.j == some x && s.expects c r

/-- The tail of convoy `c` moves to `j` when the record there is complete and next to the tail; the record is removed,
the Interlock is told, and an ARRIVING convoy may be ARRIVED (R99, R101 step 6). -/
def State.advanceTail (s : State) (c : Conv) (j : Nat) : State :=
  match (s.track c).record? j with
  | none => s
  | some r =>
    if r.n = s.memberCount c ∧ j = (s.track c).tail + 1 then
      let s := s.modTrack c fun t => { t with tail := j, records := t.records.filter fun q => q.j != j }
      (s.tailLeft c (j - 1)).checkArrived c
    else s

/-- The gap of member `k` is handed to the Governor when the member is a TRUCK whose unit is in RUN (R101 step 2). -/
def State.handGap (s : State) (c : Conv) (k j g tg : Nat) : State :=
  match ((s.members c)[k]?).bind Member.addr? with
  | none => s
  | some a =>
    if s.unitState? c (unitIndex (s.members c) k) = some .run then s.followerComputation c a k j g tg else s

/-- The branch bit of member `k`, if it is a TRUCK, is brought up to date for boundary `j` (R101 step 4). -/
def State.memberBranch (s : State) (c : Conv) (k j : Nat) : State :=
  match ((s.members c)[k]?).bind Member.addr? with
  | some a => s.updateBranch c a j
  | none => s

/-- A member crossing at record `r` of convoy `c`, in the six steps of R101. -/
def State.memberCrossing (s : State) (c : Conv) (r : Crossing) : State :=
  let k := r.n
  let s := s.modRecord c r.j fun q => { q with n := k + 1, running := false }
  let s := if 1 ≤ k then s.handGap c k r.j r.timer r.thr.tg else s
  let s := if k + 1 < s.memberCount c then s.modRecord c r.j (s.startedTimer c) else s
  let s := s.memberBranch c k r.j
  let s := s.afterPassage c k r.j
  s.advanceTail c r.j

/-- The record a leader crossing creates at boundary `j` (R99, R102): count 1, its timer started for member 1 when there
is one. -/
def State.newRecord (s : State) (c : Conv) (j : Nat) : Crossing :=
  ⟨j, 1, 0, decide (1 < s.memberCount c), (s.convoy c).thr, false⟩

/-- Step 6 of R102: a ROLLING convoy whose leader entered a section with no brake detector, with the next section not
effective, becomes WAITING. -/
def State.noBrakeStop (s : State) (c : Conv) (x : Sec) : State :=
  if (s.convoy c).state = .rolling ∧ s.hasBrake x = false ∧ s.nextEffective c = false then s.enterWaiting c else s

/-- A leader crossing of convoy `c` into `x` = route[head + 1], in the seven steps of R102. -/
def State.leaderCrossing (s : State) (c : Conv) (x : Sec) : State :=
  let j := (s.track c).head + 1
  let s := s.modTrack c fun t =>
    { t with head := j, records := t.records ++ [s.newRecord c j], brakeSeen := false }
  let s := s.memberBranch c 0 j
  let s := if s.memberCount c = 1 then s.advanceTail c j else s
  let s := s.headAdvanced c
  let s := s.recomputeTarget c
  let s := s.noBrakeStop c x
  s.afterPassage c 0 j

/-! ### Entry passages (R100, R103, R104) -/

/-- The formed convoys whose leader was due to enter `x` without having been given it (R100 case 2). -/
def State.overrunCandidates (s : State) (x : Sec) : List Conv :=
  allConvoys.filter fun c => s.formed c && s.nextSec? c == some x && !s.holds c x

/-- An overrun by convoy `c` into `x` (R103): an unheld section is reported occupied, `c` suffers OVERRUN, and a
holder suffers INTRUDED. Both faults are made before any road they release is scanned, so that each finds the other
made (R105, notes/assumptions/22.md). -/
def State.overrun (s : State) (c : Conv) (x : Sec) : State :=
  match s.secHolder x with
  | some d =>
    let mine : ConvoyFault := ⟨.overrun, x, 0⟩
    let theirs : ConvoyFault := ⟨.intruded, x, s.countAt d x⟩
    let t := s.stopFaulty c mine
    let u := (t.stopFaulty d theirs).scanAll (s.faultRoad c ++ t.faultRoad d)
    (u.faultNotice c mine (convoyNumber d)).faultNotice d theirs (convoyNumber c)
  | none => (s.occupied x).fault c ⟨.overrun, x, 0⟩

/-- The STRAY notice of a passage on detector `d` at section `x` (R104, Table 9.5). -/
def strayNotice (x : Sec) (d : Inp) : Notice := ⟨.stray, none, some x, none, none, d.1⟩

/-- A stray passage on detector `d` at section `x`, by the section's state (R104). -/
def State.stray (s : State) (x : Sec) (d : Inp) : State :=
  match (s.sec x).dyn with
  | .free => (s.occupied x).raise (strayNotice x d) .allPorts
  | .parked => (s.occupied x).raise (strayNotice x d) .allPorts
  | .clearing _ => (s.occupied x).raise (strayNotice x d) .allPorts
  | .held c => s.fault c ⟨.count, x, s.countAt c x⟩
  | .barred => s.raise (strayNotice x d) .levelZero
  | .blocked => s

/-- What an entry passage is (R100). -/
inductive Attribution where
  | member (c : Conv) (r : Crossing)
  | leader (c : Conv)
  | overrun (c : Conv)
  | stray
  deriving DecidableEq, Repr

/-- Cases 2 and 3 of R100. -/
def State.unheldAttribution (s : State) (x : Sec) : Attribution :=
  match s.overrunCandidates x with
  | [c] => .overrun c
  | [] => .stray
  | _ :: _ :: _ => .stray

/-- The first case of R100 that applies to an entry passage at section `x`. -/
def State.attribution (s : State) (x : Sec) : Attribution :=
  match s.secHolder x with
  | none => s.unheldAttribution x
  | some c =>
    match s.expecting? c x with
    | some r => .member c r
    | none => if s.nextSec? c = some x then .leader c else s.unheldAttribution x

/-- A passage with role ENTRY of section `x` on detector `d` (R100). -/
def State.entryPassage (s : State) (x : Sec) (d : Inp) : State :=
  match s.attribution x with
  | .member c r => s.memberCrossing c r
  | .leader c => s.leaderCrossing c x
  | .overrun c => s.overrun c x
  | .stray => s.stray x d

/-! ### Brake passages (R106) -/

/-- The passage on the brake detector of `x` is the leader's brake passage of convoy `c` (R106). -/
def State.isBrakeOf (s : State) (x : Sec) (c : Conv) : Bool :=
  s.headSec? c == some x && !(s.track c).brakeSeen
    && ((s.convoy c).state == .rolling || ((s.convoy c).state == .held && (s.convoy c).resume == some .rolling))

/-- The leader's brake passage of convoy `c` (R106). -/
def State.leaderBrake (s : State) (c : Conv) : State :=
  let s := s.modTrack c fun t => { t with brakeSeen := true }
  if (s.convoy c).state = .rolling then
    if s.headIsLast c then s.enterArriving c
    else if s.nextEffective c then s
    else s.enterWaiting c
  else if s.headIsLast c then s.modConvoy c fun r => { r with resume := some .arriving }
  else s

/-- A passage with role BRAKE of section `x` (R106). -/
def State.brakePassage (s : State) (x : Sec) : State :=
  match allConvoys.find? (s.isBrakeOf x) with
  | some c => s.leaderBrake c
  | none => s

/-! ### Gap timers (R111) -/

/-- The gap timer of a record of convoy `c` counts: it runs, and the truck of the awaited member's unit has a commanded
speed above 0 (R111). -/
def State.gapCounts (s : State) (c : Conv) (r : Crossing) : Bool :=
  r.running && decide (0 < s.unitCmd c (unitIndex (s.members c) r.n))

/-- The timer of record `r` reaches its working Tlag (R111, R127). -/
def State.gapLag (s : State) (c : Conv) (r : Crossing) : State :=
  let s := s.modRecord c r.j fun q => { q with lagDone := true }
  let u := unitIndex (s.members c) r.n
  if s.unitState? c u = some .run then s.lagBoost c u else s

/-- The timer of record `r` reaches its working Tlost: it stops, and the convoy suffers LOST (R111). -/
def State.gapLost (s : State) (c : Conv) (r : Crossing) : State :=
  let s := s.modRecord c r.j fun q => { q with running := false }
  match s.routeAt c r.j with
  | some x => s.fault c ⟨.lost, x, r.n⟩
  | none => s

end Sys2Proof.Machine
end

