-- ==== Sys2Proof/Machine/Halt.lean ====
section
/-!
DEFINITION. The Halt Supervisor's operations (Chapter 10): causes (R160), entering HALTED (R161), the restart of the
layout at RESUME_ALL (R163), the supply comparison (R165), and the power reset that every block takes (R20, R166).
-/

namespace Sys2Proof.Machine

open Sys2Proof

/-- The three halt causes (Table 10.1). -/
inductive Cause where
  | request
  | chord
  | radio
  deriving DecidableEq, Repr

/-- The detail of a HALTED notice (R161). -/
def Cause.code : Cause → Nat
  | .request => 1
  | .chord => 2
  | .radio => 3

/-- A cause is present. -/
def HaltSupervisor.has (h : HaltSupervisor) : Cause → Bool
  | .request => h.request
  | .chord => h.chord
  | .radio => h.radio

/-- A cause made present or absent. -/
def HaltSupervisor.put (h : HaltSupervisor) (c : Cause) (v : Bool) : HaltSupervisor :=
  match c with
  | .request => { h with request := v }
  | .chord => { h with chord := v }
  | .radio => { h with radio := v }

/-- Every follower unit of every formed convoy becomes DOWN (R110, R161 step 4). -/
def State.allUnitsDown (s : State) : State :=
  s.forEach allConvoys fun s c => if s.formed c then s.unitsDown c else s

/-- The part becomes HALTED (R161): every ACTIVE truck is hard-stopped, three broadcasts are owed, every follower unit
is DOWN. That grants are suspended is the halt state itself (R82). -/
def State.enterHalt (s : State) : State :=
  let s := s.modHls fun h => { h with halted := true }
  let s := s.forEach s.activeTrucks State.hardStop
  let s := s.modRds fun r => { r with broadcasts := 3 }
  s.allUnitsDown

/-- A cause becomes present (R160, R161): it joins the set, halts a RUNNING part, and raises a HALTED notice; a cause
already present changes nothing. -/
def State.causePresent (s : State) (c : Cause) : State :=
  if s.hls.has c then s
  else
    let s := s.modHls fun h => h.put c true
    let s := if s.hls.halted then s else s.enterHalt
    s.raise (Notice.plain .halted c.code) .allPorts

/-- A cause becomes absent (R160). -/
def State.causeAbsent (s : State) (c : Cause) : State := s.modHls fun h => h.put c false

/-- The restart procedure on every convoy that is ROLLING or WAITING (R109, R163 step 3). -/
def State.restartAll (s : State) : State :=
  s.forEach allConvoys fun s c =>
    if (s.convoy c).state = .rolling ∨ (s.convoy c).state = .waiting then s.restart c else s

/-! ### The supply monitor (R165) -/

/-- The warning threshold V_T in mV for a threshold code (R12, R165). -/
def thresholdMv (code : Nat) : Nat := 4600 + 100 * code

/-- The supply state becomes LOW, with SUPPLY_LOW to all ports (R165). -/
def State.moveLow (s : State) : State :=
  let s := s.modHls fun h => { h with supplyLow := true }
  (s.supplyLowered).raise (Notice.plain .supplyLow) .allPorts

/-- The supply state becomes NORMAL, with SUPPLY_OK to all ports (R165). -/
def State.moveNormal (s : State) : State :=
  let s := s.modHls fun h => { h with supplyLow := false }
  (s.recomputeAllTargets).raise (Notice.plain .supplyOk) .allPorts

/-- The comparison that can move the supply state to LOW (R165). -/
def State.compareLow (s : State) : State :=
  if s.hls.supplyLow = false ∧ s.pins.supplyMv < thresholdMv s.map.settings.threshold then s.moveLow else s

/-- The comparison that can move the supply state to NORMAL (R165). -/
def State.compareNormal (s : State) : State :=
  if s.hls.supplyLow = true ∧ thresholdMv s.map.settings.threshold + 150 ≤ s.pins.supplyMv then s.moveNormal else s

/-- The comparison with a new threshold (R165). -/
def State.compareSupply (s : State) : State := if s.hls.supplyLow then s.compareNormal else s.compareLow

/-! ### Power reset (R20, R166) -/

/-- The map store after a power reset: an abandoned write leaves contents whose check value does not match (R33). -/
def MapUnit.storeAfterReset (m : MapUnit) : StoreContents :=
  match m.phase with
  | .committing => .torn
  | .held => m.store
  | .loading => m.store
  | .ready => m.store

/-- Every block takes its power reset values, and the reset is held; the lines, the map store and the model's own
fields stay (R20, R48, R70, R96, R114, R115, R144, R155, R160). -/
def State.powerReset (s : State) : State :=
  { s with
    raised := []
    mu := { s.mu with
      phase := .held, mapInvalid := false, failedStage := 0, store := s.mu.storeAfterReset, commit := none, loadLeftMs := 0 }
    dfe := FrontEnd.reset fun d => (s.input d).high
    cvt := ConvoyTable.reset
    sil := Interlock.reset
    tracks := Tab.all 12 Track.blank
    hwg := Governor.reset
    rds := Dispatcher.reset
    ports := s.ports.map fun p => PortState.fresh p.present presentMs false
    hls := HaltSupervisor.reset }

/-- The supply falls below 4.2 V: brown-out, a held power reset (R166). -/
def State.enterBrownOut (s : State) (mv : Nat) : State :=
  { s.powerReset with pins := { s.pins with supplyMv := mv, brownOut := true } }

end Sys2Proof.Machine
end

