-- ==== Sys2Proof/Machine/Conditioning.lean ====
section
/-!
DEFINITION. The Detector Front End's operations (Chapter 3): conditioning of an input (R34 to R40), passages (R41,
R43), and the stop chord (R45 to R47).
-/

namespace Sys2Proof.Machine

open Sys2Proof

/-- The accepted level is active in ACTIVE and FALLING (R34). -/
def InputState.accepted : InputState → Bool
  | .disabled => false
  | .idle => false
  | .inactive => false
  | .rising => false
  | .active => true
  | .falling => true

/-- The logical level of input `d`: the level of its line read against its active level. -/
def State.logical (s : State) (d : Inp) : Bool := (s.input d).high == (s.map.detectors.nth d).activeHigh

/-- Set conditioning state and check timer of input `d`. -/
def State.setCond (s : State) (d : Inp) (c : InputState) (t : Option Nat) : State :=
  s.modInput d fun i => { i with cond := c, timer := t }

/-! ### The stop chord (R45 to R47) -/

/-- The chord inputs under the current selection (R45). -/
def State.chordSet (s : State) : List Inp := chordInputs s.map.settings.chord

/-- The chord is complete: a selection other than 0, and every chord input accepted active (R46). -/
def State.chordComplete (s : State) : Bool :=
  s.map.settings.chord != 0 && s.chordSet.all fun d => (s.input d).cond.accepted

/-- The chord state follows the chord, with a report to the Halt Supervisor at each change (R46, R160). -/
def State.updateChord (s : State) : State :=
  if s.chordComplete && !s.dfe.chord then
    State.causePresent { s with dfe := { s.dfe with chord := true } } .chord
  else if !s.chordComplete && s.dfe.chord then
    State.causeAbsent { s with dfe := { s.dfe with chord := false } } .chord
  else s

/-! ### Passages (R41, R43) -/

/-- A number added to an ascending list without repeats. -/
def insertInp (d : Inp) : List Inp → List Inp
  | [] => [d]
  | e :: l => if d < e then d :: e :: l else if d = e then e :: l else e :: insertInp d l

/-- `d` is added to the seen set of every attached port (R43). -/
def State.addSeen (s : State) (d : Inp) : State :=
  s.forEach s.attachedPorts fun s p =>
    { s with dfe := { s.dfe with seen := s.dfe.seen.put p (insertInp d (s.dfe.seen.nth p)) } }

/-- A passage on `d`, unless `d` is a chord input: the seen sets, then the Tracker by the role of `d` (R41, R45). -/
def State.passage (s : State) (d : Inp) : State :=
  if s.chordSet.contains d then s
  else
    let s := s.addSeen d
    match s.map.roleOf d with
    | .entry x => s.entryPassage x d
    | .brake x => s.brakePassage x
    | .none => s

/-- Input `d` moves to ACTIVE: the passage, and the chord (R41, R46). -/
def State.becomeActive (s : State) (d : Inp) : State := ((s.setCond d .active none).updateChord).passage d

/-- Input `d` moves to INACTIVE from an accepted active level (R37, R46). -/
def State.becomeInactive (s : State) (d : Inp) : State := (s.setCond d .inactive none).updateChord

/-! ### Conditioning (R34 to R40) -/

/-- The filter of the group of `d` is off (R38). -/
def State.filterOff (s : State) (d : Inp) : Bool := s.map.filterCode d == 0

/-- An input with its logical level inactive in IDLE: its check timer starts, or with the filter off it is armed at
once (R35). -/
def State.idleInactive (s : State) (d : Inp) : State :=
  if s.filterOff d then s.setCond d .inactive none else s.setCond d .idle (some 0)

/-- Input `d` enters IDLE (R35). -/
def State.enterIdle (s : State) (d : Inp) : State :=
  if s.logical d then s.setCond d .idle none else s.idleInactive d

/-- Input `d` takes the state its enable flag gives: IDLE if it is set, DISABLED if not (R39, R48). -/
def State.startInput (s : State) (d : Inp) : State :=
  if (s.map.detectors.nth d).enabled then s.enterIdle d else s.setCond d .disabled none

/-- The logical level of input `d` has become active (R35 to R38, R40). -/
def State.wentActive (s : State) (d : Inp) : State :=
  match (s.input d).cond with
  | .disabled => s
  | .idle => s.setCond d .idle none
  | .inactive => if s.filterOff d then s.becomeActive d else s.setCond d .rising (some 0)
  | .rising => s
  | .active => s
  | .falling => s.setCond d .active none

/-- The logical level of input `d` has become inactive (R35 to R38, R40). -/
def State.wentInactive (s : State) (d : Inp) : State :=
  match (s.input d).cond with
  | .disabled => s
  | .idle => s.idleInactive d
  | .inactive => s
  | .rising => s.setCond d .inactive none
  | .active => if s.filterOff d then s.becomeInactive d else s.setCond d .falling (some 0)
  | .falling => s

/-- The check timer of input `d` expires (R35 to R37). -/
def State.checkExpiry (s : State) (d : Inp) : State :=
  match (s.input d).cond with
  | .disabled => s
  | .idle => s.setCond d .inactive none
  | .inactive => s
  | .rising => s.becomeActive d
  | .active => s
  | .falling => s.becomeInactive d

/-- The conditioning of the inputs of a list is restarted; the chord then follows (R39, R46). -/
def State.restartInputs (s : State) (ds : List Inp) : State := (s.forEach ds State.startInput).updateChord

end Sys2Proof.Machine
end

