-- ==== Sys2Proof/Machine/Clock.lean ====
section
/-!
DEFINITION. Time. The model's clock counts whole milliseconds. `State.advance` lets time pass: every timer that runs
moves, and nothing else happens. An event that a timer brings takes place at the timer's own time
(notes/assumptions/10.md): `State.atExpiry` lets the time that the timer has left pass, and then makes the event.
`State.due` lists the events whose time has come; they are what the part does by itself when no command waits
(notes/assumptions/11.md).
-/

namespace Sys2Proof.Machine

open Sys2Proof

/-! ### Passing time -/

/-- A gap timer after `ms` more milliseconds of counting; it saturates at 65535 (R111). -/
def Crossing.counted (r : Crossing) (ms : Nat) : Crossing := { r with timer := min (r.timer + ms) 65535 }

/-- A clearance timer after `ms` (R88). -/
def SecState.elapse (ms : Nat) : SecState → SecState
  | .free => .free
  | .held c => .held c
  | .clearing t => .clearing (t - ms)
  | .parked => .parked
  | .barred => .barred
  | .blocked => .blocked

/-- A settle timer after `ms` (R84). -/
def Watch.elapse (ms : Nat) : Watch → Watch
  | .idle => .idle
  | .awaiting m => .awaiting m
  | .settling m t => .settling m (t - ms)
  | .effective m => .effective m

/-- A flush timer after `ms` (R159). -/
def Flush.elapse (ms : Nat) : Flush → Flush
  | .stopped => .stopped
  | .running t => .running (t - ms)
  | .expired => .expired

/-- A transmitter after `ms`: 1000 µs of the line for each (R154). -/
def Transmitter.elapse (ms : Nat) : Transmitter → Transmitter
  | .idle => .idle
  | .sending bytes left batch rest => .sending bytes (left - 1000 * ms) batch rest

/-- A port after `ms`: the watch of its present line (R146), its flush timer and its transmitter. -/
def PortState.elapse (ms : Nat) (p : PortState) : PortState :=
  { p with watchMs := p.watchMs - ms, flush := p.flush.elapse ms, tx := p.tx.elapse ms }

/-- The Map Unit after `ms`: the load (R22) or the commit (R32) in progress comes nearer its end. -/
def MapUnit.elapse (ms : Nat) (m : MapUnit) : MapUnit :=
  { m with
    loadLeftMs := m.loadLeftMs - ms
    commit := m.commit.map fun k => { k with leftMs := k.leftMs - ms } }

/-- `ms` milliseconds pass in which no event comes. No slot and no tick comes nearer before the end of the load, and no
watch of a port runs while a power reset is held (R20, R21). -/
def State.advance (s : State) (ms : Nat) : State :=
  if ms = 0 then s
  else
    { s with
      now := s.now + ms
      mu := s.mu.elapse ms
      dfe := { s.dfe with inputs := s.dfe.inputs.map fun i => { i with timer := i.timer.map fun v => v + ms } }
      sil := { s.sil with
        sections := s.sil.sections.map fun q => { q with dyn := q.dyn.elapse ms }
        roads := s.sil.roads.map fun w => { w with watch := w.watch.elapse ms } }
      tracks := Tab.make 12 fun c =>
        { s.track c with records := (s.track c).records.map fun r => if s.gapCounts c r then r.counted ms else r }
      hwg := if s.running then { s.hwg with tickInMs := s.hwg.tickInMs - ms } else s.hwg
      rds := if s.running then { s.rds with slotInMs := s.rds.slotInMs - ms } else s.rds
      ports := if s.mu.phase = .held then s.ports else s.ports.map (PortState.elapse ms) }

/-! ### The time a timer has left -/

/-- The check timer of input `d`, while it runs (R34). -/
def State.checkLeft (s : State) (d : Inp) : Option Nat :=
  if s.running then (s.input d).timer.map fun v => s.map.checkTimeOf d - v else none

/-- The clearance timer of section `x`, while it runs (R88). -/
def State.clearanceLeft (s : State) (x : Sec) : Option Nat :=
  match (s.sec x).dyn with
  | .clearing t => if s.running then some t else none
  | .free => none
  | .held _ => none
  | .parked => none
  | .barred => none
  | .blocked => none

/-- The settle timer of convoy `c`, while it runs (R84). -/
def State.settleLeft (s : State) (c : Conv) : Option Nat :=
  match (s.road c).watch with
  | .settling _ t => if s.running then some t else none
  | .idle => none
  | .awaiting _ => none
  | .effective _ => none

/-- The time until the timer of record `r` reaches `point`; none while the timer is stopped, or is paused short of
the point (R111). -/
def State.pointLeft (s : State) (c : Conv) (r : Crossing) (point : Nat) : Option Nat :=
  if !s.running || !r.running then none
  else if point ≤ r.timer then some 0
  else if s.gapCounts c r then some (point - r.timer)
  else none

/-- The gap timer of convoy `c` at boundary `j`, to its working Tlag, with lag-boost-done clear (R111). -/
def State.lagLeft (s : State) (c : Conv) (j : Nat) : Option Nat :=
  match (s.track c).record? j with
  | some r => if r.lagDone then none else s.pointLeft c r r.thr.tlag
  | none => none

/-- The gap timer of convoy `c` at boundary `j`, to its working Tlost (R111). -/
def State.lostLeft (s : State) (c : Conv) (j : Nat) : Option Nat :=
  match (s.track c).record? j with
  | some r => s.pointLeft c r r.thr.tlost
  | none => none

/-- The next ramp tick (R116). -/
def State.tickLeft (s : State) : Option Nat := if s.running then some s.hwg.tickInMs else none

/-- The next slot start (R130). -/
def State.slotLeft (s : State) : Option Nat := if s.running then some s.rds.slotInMs else none

/-- The flush timer of port `p`, while it runs (R159). -/
def State.flushLeft (s : State) (p : Port) : Option Nat :=
  match (s.port p).flush with
  | .running t => some t
  | .stopped => none
  | .expired => none

/-- The watch of the present line of port `p`, while the line shows other than the port's state and no power reset is held
(R20, R146). -/
def State.watchLeft (s : State) (p : Port) : Option Nat :=
  if s.mu.phase = .held ∨ (s.port p).present = (s.port p).attached then none else some (s.port p).watchMs

/-- An event that a timer brings: it takes place when the timer has run out, and not at all while the timer does not
run. -/
def State.atExpiry (s : State) (left : Option Nat) (f : State → State) : State :=
  match left with
  | none => s
  | some t => (s.advance t).event f

/-- The message in progress has been sent to its end. -/
def PortState.sent (p : PortState) : Bool :=
  match p.tx with
  | .idle => false
  | .sending _ left _ _ => left == 0

/-! ### The events whose time has come -/

/-- A timer has run out. -/
def ranOut (left : Option Nat) : Bool := left == some 0

/-- What port `p` does now. -/
def State.duePort (s : State) (p : Port) : List Instr :=
  (if (s.port p).canReply then [.replySendStart p] else [])
    ++ (if (s.port p).canBatch then [.batchStart p] else [])
    ++ (if (s.port p).sent then [.messageEnd p] else [])
    ++ (if ranOut (s.flushLeft p) then [.flushTimerExpiry p] else [])
    ++ (if ranOut (s.watchLeft p) then [if (s.port p).present then .attach p else .detach p] else [])

/-- What the gap timers of convoy `c` bring now. -/
def State.dueGaps (s : State) (c : Conv) : List Instr :=
  (((s.track c).records.filter fun r => ranOut (s.lagLeft c r.j)).map fun r => .gapTimerTlag c r.j)
    ++ (((s.track c).records.filter fun r => ranOut (s.lostLeft c r.j)).map fun r => .gapTimerTlost c r.j)

/-- The end of a load whose time is up (R22): what the store gives is left open (notes/assumptions/5.md). -/
def State.dueLoad (s : State) : List Instr :=
  if s.mu.phase = .loading ∧ s.mu.loadLeftMs = 0 then [.endOfTheLoad (Config.storeReadable s.now)] else []

/-- The end of a commit whose time is up (R32): what is read back is left open (notes/assumptions/5.md). -/
def State.dueCommit (s : State) : List Instr :=
  match s.mu.commit with
  | some k => if s.mu.phase = .committing ∧ k.leftMs = 0 then [.commitEnd (Config.readBack s.now)] else []
  | none => []

/-- Every event whose time has come. -/
def State.due (s : State) : List Instr :=
  Port.all.flatMap s.duePort
    ++ s.dueLoad ++ s.dueCommit
    ++ (((List.finRange 64).filter fun d => ranOut (s.checkLeft d)).map .checkTimerExpiry)
    ++ ((allSections.filter fun x => ranOut (s.clearanceLeft x)).map .clearanceTimerExpiry)
    ++ ((allConvoys.filter fun c => ranOut (s.settleLeft c)).map .settleTimerExpiry)
    ++ allConvoys.flatMap s.dueGaps
    ++ (if ranOut s.tickLeft then [.rampTick] else [])
    ++ (if ranOut s.slotLeft then [.slotStart (Config.modemReady s.now)] else [])

end Sys2Proof.Machine
end

