-- ==== Sys2Proof/Machine/Operands.lean ====
section
/-!
DEFINITION. The operands of the requests: the request bodies of Table 9.8, with the entry layouts of Tables 1.6 and
1.7 (R18, R19), the member lists of R51, and the values each field allows. Each function answers `none` for a body
that R151 or the kind's own rule refuses with BAD_ARG.
-/

namespace Sys2Proof.Machine

open Sys2Proof

/-! ### Bytes and bits -/

/-- Bits `hi` to `lo` of a byte, as a number. -/
def bits (b : Byte) (hi lo : Nat) : Nat := (b.toNat >>> lo) % 2 ^ (hi + 1 - lo)

/-- Bit `i` of a byte is 1. -/
def bit (b : Byte) (i : Nat) : Bool := b.toNat.testBit i

/-- Two bytes, the low-order byte first (R147). -/
def word (lo hi : Byte) : Nat := lo.toNat + 256 * hi.toNat

/-- The section a body byte names. -/
def secArg (b : Byte) : Option Sec := secOf b.toNat

/-- The truck a body byte addresses: 1 to 32. -/
def addrArg (b : Byte) : Option Addr :=
  if h : 1 ≤ b.toNat ∧ b.toNat ≤ 32 then some ⟨b.toNat - 1, by omega⟩ else none

/-- The input a body byte numbers: 0 to 63. -/
def inpArg (b : Byte) : Option Inp := if h : b.toNat < 64 then some ⟨b.toNat, h⟩ else none

/-- The group a body byte numbers: 0 to 7. -/
def grpArg (b : Byte) : Option Grp := if h : b.toNat < 8 then some ⟨b.toNat, h⟩ else none

/-- The profile a body byte numbers: 0 to 7. -/
def profileArg (b : Byte) : Option ProfileNo := if h : b.toNat < 8 then some ⟨b.toNat, h⟩ else none

/-- A flag byte: 0 or 1. -/
def flagArg (b : Byte) : Option Bool :=
  match b.toNat with
  | 0 => some false
  | 1 => some true
  | _ => none

/-- A light change byte: 0 leave, 1 on, 2 off (Table 9.8). -/
def lightArg (b : Byte) : Option LightChange :=
  match b.toNat with
  | 0 => some .leave
  | 1 => some .on
  | 2 => some .off
  | _ => none

/-- The body of a request that names one section and nothing else. -/
def onlySection (body : List Byte) : Option Sec :=
  match body with
  | [b] => secArg b
  | _ => none

/-! ### Map entries -/

/-- The kind a kind code gives; code 3 is none (R18). -/
def kindArg : Nat → Option SecKind
  | 0 => some .plain
  | 1 => some .fork
  | 2 => some .bay
  | _ => none

/-- The low six bits of a byte as an input number. -/
def inpBits (b : Byte) : Inp := ⟨bits b 5 0, Nat.mod_lt _ (by decide)⟩

/-- The zone bits of byte 1 of a section entry. -/
def zoneBits (b : Byte) : Zone := ⟨bits b 5 2, Nat.mod_lt _ (by decide)⟩

/-- The group bits of byte 8 of a section entry. -/
def grpBits (b : Byte) : Grp := ⟨bits b 2 0, Nat.mod_lt _ (by decide)⟩

/-- A field with a present bit 7. -/
def optional {α : Type} (b : Byte) (x : α) : Option α := if bit b 7 then some x else none

/-- No bit outside Table 1.6 is 1 in the nine bytes of a section entry. -/
def entryBitsClear (b0 b1 b4 b5 b6 b7 b8 : Byte) : Bool :=
  bits b0 7 6 == 0 && !bit b1 7 && bits b4 7 6 == 0 && !bit b5 6 && !bit b6 6 && !bit b7 6 && bits b8 6 3 == 0

/-- The section entry of an EDIT_SECTION body: the section it names and the record it gives, with the bar flag set
(R18, Table 1.6). The ranges are tested on the number bits of absent fields too (notes/assumptions/14.md). -/
def sectionEntry (body : List Byte) : Option (Sec × SectionRec) :=
  match body with
  | [b0, b1, b2, b3, b4, b5, b6, b7, b8] =>
    match secArg b0, kindArg (bits b1 1 0) with
    | some x, some k =>
      if entryBitsClear b0 b1 b4 b5 b6 b7 b8
          && decide (20 ≤ word b2 b3) && decide (word b2 b3 ≤ 2000)
          && decide (bits b4 5 0 ≤ 59) && decide (bits b5 5 0 ≤ 59)
          && decide (bits b6 5 0 < 48) && decide (bits b7 5 0 < 48) then
        some (x,
          { kind := k, zone := zoneBits b1, length := word b2 b3, entry := inpBits b4
            brake := optional b5 (inpBits b5), succ0 := optional b6 (bits b6 5 0), succ1 := optional b7 (bits b7 5 0)
            group := optional b8 (grpBits b8), barred := true })
      else none
    | _, _ => none
  | _ => none

/-- The hold code bits of byte 3 of a profile entry. -/
def holdBits (b : Byte) : Fin 4 := ⟨bits b 1 0, Nat.mod_lt _ (by decide)⟩

/-- The settle code bits of byte 3 of a profile entry. -/
def settleBits (b : Byte) : Fin 8 := ⟨bits b 4 2, Nat.mod_lt _ (by decide)⟩

/-- The profile entry of an EDIT_ZONE body, the caps as sent (R19, Table 1.7). -/
def profileEntry (body : List Byte) : Option (ProfileNo × Profile) :=
  match body with
  | [b0, b1, b2, b3] =>
    match profileArg b0 with
    | some p =>
      if bits b1 7 6 == 0 && bits b2 7 5 == 0 && bits b3 7 5 == 0 then
        some (p, ⟨bits b1 5 0, bits b2 4 0, holdBits b3, settleBits b3⟩)
      else none
    | none => none
  | _ => none

/-- A filter code: 0 to 7 (R10). -/
def filterArg (b : Byte) : Option (Fin 8) := if h : b.toNat < 8 then some ⟨b.toNat, h⟩ else none

/-- The body of EDIT_DETECTOR: input, setting, filter code (R29, Table 9.8). -/
def detectorEntry (body : List Byte) : Option (Inp × DetectorSetting × Fin 8) :=
  match body with
  | [b0, b1, b2, b3] =>
    match inpArg b0, flagArg b1, flagArg b2, filterArg b3 with
    | some d, some e, some l, some f => some (d, ⟨e, l⟩, f)
    | _, _, _, _ => none
  | _ => none

/-- A number put into an ascending list. -/
def insertNat (n : Nat) : List Nat → List Nat
  | [] => [n]
  | m :: l => if n ≤ m then n :: m :: l else m :: insertNat n l

/-- A list in ascending order. -/
def ascending (l : List Nat) : List Nat := l.foldr insertNat []

/-- The list holds no number twice. -/
def noRepeats : List Nat → Bool
  | [] => true
  | n :: l => !l.contains n && noRepeats l

/-- The body of EDIT_GROUP: the group and its new list in ascending order (R30). -/
def groupEntry (body : List Byte) : Option (Grp × List Nat) :=
  match body with
  | [] => none
  | b :: rest =>
    match grpArg b with
    | some g =>
      if rest.length ≤ 8 && (rest.map BitVec.toNat).all (fun n => decide (n < 48)) && noRepeats (rest.map BitVec.toNat) then
        some (g, ascending (rest.map BitVec.toNat))
      else none
    | none => none

/-- The body of EDIT_SETTINGS, as sent (Table 9.8). -/
def settingsEntry (body : List Byte) : Option Settings :=
  match body with
  | [a, b, c, d, ch, lo, hi, th] => some ⟨⟨a.toNat, b.toNat, c.toNat, d.toNat⟩, ch.toNat, word lo hi, th.toNat⟩
  | _ => none

/-- The entry a READ_MAP names (R26). -/
inductive MapEntry where
  | sec (x : Sec)
  | profile (p : ProfileNo)
  | detector (d : Inp)
  | grp (g : Grp)
  | settings
  deriving DecidableEq, Repr

/-- The body of READ_MAP (R26, Table 9.8). -/
def mapEntryArg (body : List Byte) : Option MapEntry :=
  match body with
  | [t, n] =>
    match t.toNat with
    | 0 => (secArg n).map .sec
    | 1 => (profileArg n).map .profile
    | 2 => (inpArg n).map .detector
    | 3 => (grpArg n).map .grp
    | 4 => some .settings
    | _ => none
  | _ => none

/-! ### Member lists (R51, R151) -/

/-- The bytes of a member list, two for each member; `none` for an odd number of bytes. -/
def memberPairs : List Byte → Option (List (Byte × Byte))
  | [] => some []
  | [_] => none
  | a :: b :: rest => (memberPairs rest).map fun l => (a, b) :: l

/-- One member by itself (R51, R151): `none` where bit 6 is set, a TRAILER has an address, an address is not 1 to 32,
or a length is not 10 to 60 cm. -/
def memberArg (m : Byte × Byte) : Option Member :=
  if bit m.1 6 then none
  else if m.2.toNat < 10 ∨ 60 < m.2.toNat then none
  else if bit m.1 7 then
    (addrArg (BitVec.ofNat 8 (bits m.1 5 0))).map fun a => .truck a m.2.toNat
  else if bits m.1 5 0 = 0 then some (.trailer m.2.toNat)
  else none

/-- The member may follow the members `before` it (R51): the first is a TRUCK, no address stands twice, and no TRUCK
draws more than 2 TRAILERs. -/
def mayFollow (before : List Member) : Member → Bool
  | .truck a _ => !(truckAddrs before).contains a
  | .trailer _ => !before.isEmpty && decide ((before.reverse.takeWhile Member.isTrailer).length < 2)

/-- The members from the list's index on, or the index of the first member at which the list fails. -/
def membersFrom (before : List Member) : List (Byte × Byte) → Except Nat (List Member)
  | [] => .ok before
  | p :: rest =>
    match memberArg p with
    | none => .error before.length
    | some m => if mayFollow before m then membersFrom (before ++ [m]) rest else .error before.length

/-- A well-formed member list, or the index of the first member at which the list fails: 8 for more than 8 members or
none (R51). -/
def memberList (ps : List (Byte × Byte)) : Except Nat (List Member) :=
  if ps.isEmpty || decide (8 < ps.length) then .error 8 else membersFrom [] ps

/-! ### The other bodies -/

/-- A value brought into a range (R64 step 1). -/
def clampTo (lo hi n : Nat) : Nat := min (max n lo) hi

/-- The nine values of a SET_PARAMS body, in the order of Table 4.4, as sent. -/
def paramValues (rest : List Byte) : Option (List Nat) :=
  match rest with
  | [v, k, a, d, l, g, t0, t1, u0, u1, w0, w1] =>
    some [v.toNat, k.toNat, a.toNat, d.toNat, l.toNat, g.toNat, word t0 t1, word u0 u1, word w0 w1]
  | _ => none

/-- The nine values brought into order (R64). -/
def orderedValues (vs : List Nat) : Params × Thresholds :=
  let at0 (i : Nat) : Nat := vs.getD i 0
  let tg := clampTo 200 5000 (at0 6)
  let tlag := clampTo 300 15000 (at0 7)
  let tlag := if tlag ≤ tg then tg + 100 else tlag
  let tlost := clampTo 500 20000 (at0 8)
  let tlost := if tlost ≤ tlag then tlag + 100 else tlost
  (⟨clampTo 1 63 (at0 0), clampTo 0 31 (at0 1), clampTo 1 8 (at0 2), clampTo 1 16 (at0 3), clampTo 1 4 (at0 4),
    clampTo 5 50 (at0 5)⟩, ⟨tg, tlag, tlost⟩)

/-- The nine values as held, in the order of Table 4.4. -/
def heldValues (p : Params) (t : Thresholds) : List Nat :=
  [p.vmax, p.kp, p.aacc, p.adec, p.look, p.standGap, t.tg, t.tlag, t.tlost]

/-- The bits, from bit `i` up, of the places at which two lists differ. -/
def differMask (i : Nat) : List Nat → List Nat → Nat
  | a :: l, b :: k => (if a = b then 0 else 2 ^ i) + differMask (i + 1) l k
  | _, _ => 0

/-- The body of SET_ROUTE: 2 to 16 entries, each 0 to 47 (R74 check 2). -/
def routeArg (rest : List Byte) : Option (List Sec) :=
  if 2 ≤ rest.length ∧ rest.length ≤ 16 then rest.mapM secArg else none

/-- The body of SET_STOCK: a section and a count (R94). -/
def stockArg (body : List Byte) : Option (Sec × Nat) :=
  match body with
  | [b, n] => (secArg b).map fun x => (x, n.toNat)
  | _ => none

/-- The body of AUX (R140 check 1). -/
def auxArg (body : List Byte) : Option AuxEntry :=
  match body with
  | [a, h, z, o, c] =>
    match addrArg a, lightArg h, lightArg z, flagArg o, flagArg c with
    | some a, some h, some z, some o, some c => some ⟨a, h, z, o, c⟩
    | _, _, _, _, _ => none
  | _ => none

/-- The body of SET_NOTIFY (R152). -/
def notifyArg (body : List Byte) : Option (Bool × Nat) :=
  match body with
  | [e, l] =>
    match flagArg e with
    | some v => if l.toNat ≤ 3 then some (v, l.toNat) else none
    | none => none
  | _ => none

end Sys2Proof.Machine
end

