-- ==== Sys2Proof/Machine/Flags.lean ====
section
/-!
DEFINITION. What the part sends, as bytes: outcome codes (Table 9.2), reply payloads (Table 9.9) with their masks
and status bytes (R151), and the radio frame (Table 8.1, R132). Notice records stand in Machine/Sending.lean.
-/

namespace Sys2Proof.Machine

open Sys2Proof

/-! ### Outcomes (Table 9.2) -/

/-- The outcomes of a request. -/
inductive ReplyCode where
  | ok
  | clamped
  | notOwner
  | notPermitted
  | badState
  | badArg
  | routeInvalid
  | tooShort
  | queueFull
  | busy
  | unknownKind
  | storeFailed
  deriving DecidableEq, Repr

/-- The outcome codes of Table 9.2. -/
def ReplyCode.code : ReplyCode → Nat
  | .ok => 0x00
  | .clamped => 0x01
  | .notOwner => 0x02
  | .notPermitted => 0x03
  | .badState => 0x04
  | .badArg => 0x05
  | .routeInvalid => 0x06
  | .tooShort => 0x07
  | .queueFull => 0x08
  | .busy => 0x09
  | .unknownKind => 0x0A
  | .storeFailed => 0x0B

/-! ### Map entries (Tables 1.6, 1.7, 9.9) -/

/-- The kind code of a section. -/
def SecKind.code : SecKind → Nat
  | .plain => 0
  | .fork => 1
  | .bay => 2
  | .code3 => 3

/-- An optional six-bit number with its present bit 7; absent, every bit is 0 (R18). -/
def optionalByte (o : Option Nat) : Byte :=
  match o with
  | some n => byte (n % 64 + 128)
  | none => 0

/-- The section entry of Table 1.6. -/
def sectionBytes (x : Sec) (r : SectionRec) : List Byte :=
  [byte x.1, byte (r.kind.code + 4 * r.zone.1 + flagBit r.barred 6)] ++ twoBytes r.length
    ++ [byte r.entry.1, optionalByte (r.brake.map Fin.val), optionalByte r.succ0, optionalByte r.succ1,
      optionalByte (r.group.map Fin.val)]

/-- The profile entry of Table 1.7. -/
def profileBytes (p : ProfileNo) (r : Profile) : List Byte :=
  [byte p.1, byte r.speedCap, byte r.approachCap, byte (r.holdCode.1 + 4 * r.settleCode.1)]

/-- The four bytes of an EDIT_DETECTOR body for an input. -/
def LayoutMap.detectorBytes (m : LayoutMap) (d : Inp) : List Byte :=
  [byte d.1, byte (flagBit (m.detectors.nth d).enabled 0), byte (flagBit (m.detectors.nth d).activeHigh 0),
    byte (m.filterCode d).1]

/-- A group's number, the count of its sections, and the sections in ascending order. -/
def LayoutMap.groupBytes (m : LayoutMap) (g : Grp) : List Byte :=
  [byte g.1, byte (m.groupList g).length] ++ (ascending (m.groupList g)).map byte

/-- The eight bytes of an EDIT_SETTINGS body. -/
def settingsBytes (t : Settings) : List Byte :=
  [byte t.levels.a, byte t.levels.b, byte t.levels.c, byte t.levels.d, byte t.chord] ++ twoBytes t.refresh
    ++ [byte t.threshold]

/-- The payload of a READ_MAP reply (R26). -/
def LayoutMap.entryBytes (m : LayoutMap) : MapEntry → List Byte
  | .sec x => sectionBytes x (m.sections.nth x)
  | .profile p => profileBytes p (m.profiles.nth p)
  | .detector d => m.detectorBytes d
  | .grp g => m.groupBytes g
  | .settings => settingsBytes m.settings

/-! ### Detectors (R44) -/

/-- Eight bytes for the 64 inputs: input d at bit d − 8b of byte b. -/
def inputBytes (f : Inp → Bool) : List Byte :=
  (List.finRange 8).map fun b =>
    byte (((List.finRange 8).map fun i => flagBit (f ⟨8 * b.1 + i.1, by omega⟩) i.1).sum)

/-! ### Convoys (R151) -/

/-- The code of an owner: 0 for none. -/
def ownerCode : Option Port → Nat
  | none => 0
  | some p => p.code

/-- The place of a convoy state in Table 4.2. -/
def ConvoyState.code : ConvoyState → Nat
  | .unformed => 0
  | .standing => 1
  | .rolling => 2
  | .waiting => 3
  | .arriving => 4
  | .arrived => 5
  | .held => 6
  | .stopped => 7

/-- The code of a resume-to state: 0 for none. -/
def resumeCode : Option Resume → Nat
  | none => 0
  | some .rolling => 1
  | some .arriving => 2

/-- The status byte: owner, state and resume-to (R151). -/
def Convoy.status (v : Convoy) : Byte := byte (ownerCode v.owner + 8 * v.state.code + 64 * resumeCode v.resume)

/-- The code of a fault kind. -/
def FaultKind.code : FaultKind → Nat
  | .overrun => 1
  | .intruded => 2
  | .count => 3
  | .lost => 4

/-- Fault kind, section and member index; 0, 0xFF and 0xFF for no fault. -/
def faultBytes : Option ConvoyFault → List Byte
  | none => [0, 0xFF, 0xFF]
  | some f => [byte f.kind.code, byte f.sec.1, byte f.member]

/-- A member in two bytes. -/
def Member.bytes : Member → List Byte
  | .truck a len => [byte (128 + radioAddress a), byte len]
  | .trailer len => [0, byte len]

/-- The twelve parameter bytes in SET_PARAMS order. -/
def Convoy.paramBytes (v : Convoy) : List Byte :=
  [byte v.params.vmax, byte v.params.kp, byte v.params.aacc, byte v.params.adec, byte v.params.look,
    byte v.params.standGap] ++ twoBytes v.thr.tg ++ twoBytes v.thr.tlag ++ twoBytes v.thr.tlost

/-- Convoy number and status byte: the payload of an accepted convoy request (R55). -/
def State.shortConvoy (s : State) (c : Conv) : List Byte := [byte (convoyNumber c), (s.convoy c).status]

/-- Set and commanded speed of every TRUCK member in list order. -/
def State.speedBytes (s : State) (c : Conv) : List Byte :=
  (truckAddrs (s.members c)).flatMap fun a => [byte (s.speed a).set, byte (s.speed a).cmd]

/-- The payload of QUERY_CONVOY and of an accepted CLAIM (R56, R69). -/
def State.fullConvoy (s : State) (c : Conv) : List Byte :=
  s.shortConvoy c ++ [byte (s.memberCount c)] ++ (s.members c).flatMap Member.bytes ++ (s.convoy c).paramBytes
    ++ faultBytes (s.convoy c).fault ++ [byte (s.road c).route.length] ++ (s.road c).route.map (fun x => byte x.1)
    ++ [byte ((s.track c).head + 16 * (s.track c).tail)] ++ s.speedBytes c

/-! ### Sections (R95) -/

/-- The place of a section state in Table 5.1. -/
def SecState.code : SecState → Nat
  | .free => 0
  | .held _ => 1
  | .clearing _ => 2
  | .parked => 3
  | .barred => 4
  | .blocked => 5

/-- The time left on a clearance timer, 0 when the section is not CLEARING. -/
def SecState.leftMs : SecState → Nat
  | .clearing t => t
  | .free => 0
  | .held _ => 0
  | .parked => 0
  | .barred => 0
  | .blocked => 0

/-- The entry count and the entries of a wait queue, each with convoy and recorded level. -/
def queueBytes (q : List Entry) : List Byte := byte q.length :: q.map fun e => byte (convoyNumber e.conv + 16 * e.level)

/-- The group part of a QUERY_SECTION reply. -/
def State.groupPart (s : State) (x : Sec) : List Byte :=
  match (s.sectionRec x).group with
  | some g => [byte g.1, byte (holderCode (s.grp g).holder)] ++ queueBytes (s.grp g).queue
  | none => [0xFF, 0, 0]

/-- The payload of QUERY_SECTION (R95). -/
def State.sectionStatus (s : State) (x : Sec) : List Byte :=
  [byte x.1, byte (s.sec x).dyn.code, byte (holderCode (s.secHolder x)), byte (s.sec x).stock]
    ++ twoBytes (s.sec x).dyn.leftMs ++ queueBytes (s.sec x).queue ++ s.groupPart x

/-! ### Halt state (R151) -/

/-- The payload of ALL_STOP, RESUME_ALL and LAYOUT_RESET. -/
def State.haltBytes (s : State) : List Byte :=
  [byte (flagBit s.hls.halted 0 + flagBit s.hls.request 1 + flagBit s.hls.chord 2 + flagBit s.hls.radio 3)]

/-! ### Radio frames (Table 8.1) -/

/-- The four bytes of a frame, from address, branch bit, speed step and byte 2. -/
def frameBytes (addr : Nat) (branch : Bool) (speed : Nat) (auxByte : Nat) : List Byte :=
  let b0 := byte (64 + addr)
  let b1 := byte (flagBit branch 6 + speed)
  let b2 := byte auxByte
  [b0, b1, b2, b0 ^^^ b1 ^^^ b2 ^^^ 0x5A]

/-- Byte 2 of a frame: head lights, hazard lights, horn, coupler release. -/
def auxBits (head hazard horn coupler : Bool) : Nat :=
  flagBit head 0 + flagBit hazard 1 + flagBit horn 2 + flagBit coupler 3

/-- The broadcast stop frame (R132). -/
def broadcastFrame : List Byte := frameBytes 0 false 0 0

/-- The frame to truck `a`: an ACTIVE truck's commanded speed and aux state, with the horn and coupler release of the
entry it serves; speed 0 and no aux bit for a RETIRING truck (R132). -/
def State.truckFrame (s : State) (a : Addr) (horn coupler : Bool) : List Byte :=
  let r := s.radio a
  if s.isActive a then
    frameBytes (radioAddress a) r.branch (s.speed a).cmd (auxBits r.headLights r.hazard horn coupler)
  else frameBytes (radioAddress a) r.branch 0 0

end Sys2Proof.Machine
end

