-- ==== Sys2Proof/Machine/Console.lean ====
section
/-!
DEFINITION. The steps that every request passes (R149, R150): reply room, LOADING, level, the convoy it names and the
ownership check, then its owner block; and the reply that joins the queue (R153).
-/

namespace Sys2Proof.Machine

open Sys2Proof

/-- An outcome with its payload. -/
structure Answer where
  code : ReplyCode
  payload : List Byte
  deriving DecidableEq, Repr

/-- What an owner block makes of a request: the state, and the answer; no answer is queued at the acceptance of a
COMMIT_MAP (R32). -/
structure Result where
  state : State
  answer : Option Answer
  deriving DecidableEq, Repr

/-- A request refused: nothing changes (R25, R55). -/
def State.refusal (s : State) (code : ReplyCode) (payload : List Byte := []) : Result := ⟨s, some ⟨code, payload⟩⟩

/-- A request accepted. -/
def State.accepted (s : State) (payload : List Byte := []) : Result := ⟨s, some ⟨.ok, payload⟩⟩

/-- The most places of a reply queue (R153). -/
def replyRoom : Nat := 4

/-- The places taken in a port's reply queue, a reservation counted (R153). -/
def PortState.placesTaken (p : PortState) : Nat := p.replies.length + (if p.reserved then 1 else 0)

/-- The message of a reply: the request's kind code with bit 7 set, which is the code plus 0x80 where bit 7 was clear
(Table 9.1, R149 step 3), its tag, the outcome and the payload (R147). A received code with bit 7 set already keeps its
value, in the BUSY reply of LOADING too (notes/assumptions/35.md). -/
def replyMessage (kind tag : Byte) (a : Answer) : Message := ⟨kind ||| 0x80, tag, byte a.code.code :: a.payload⟩

/-- A reply joins the queue of port `p` (R153). -/
def State.reply (s : State) (p : Port) (kind tag : Byte) (a : Answer) : State :=
  s.modPort p fun q => { q with replies := q.replies ++ [replyMessage kind tag a] }

/-- A port takes what its receive line brings: it is attached, and no power reset is held (R20, R146). -/
def State.listens (s : State) (p : Port) : Bool := (s.port p).attached && s.mu.phase != .held

/-- What the generic checks need to know of a request kind: its code, whether level 0 alone may send it
(Table 9.3), and what every one of its replies carries after its payload (the halt state for ALL_STOP, RESUME_ALL and
LAYOUT_RESET, R151). -/
structure Kind where
  code : Byte
  levelZero : Bool := false
  haltPayload : Bool := false

/-- What every reply of a kind carries besides. -/
def Kind.tail (k : Kind) (s : State) : List Byte := if k.haltPayload then s.haltBytes else []

/-- A result becomes the state with its reply queued. -/
def Result.send (r : Result) (p : Port) (k : Kind) (tag : Byte) : State :=
  match r.answer with
  | some a => r.state.reply p k.code tag ⟨a.code, a.payload ++ k.tail r.state⟩
  | none => r.state

/-- Steps 2 to 6 of R149 for a request of a known kind, `owner` being steps 5 and 6. -/
def State.checked (s : State) (p : Port) (k : Kind) (owner : State → Result) : Result :=
  if s.mu.phase = .loading then s.refusal .busy
  else if k.levelZero && s.level p != 0 then s.refusal .notPermitted
  else owner s

/-- A request arrives at port `p` (R149): a detached port discards it, and a port whose reply queue is full leaves it
unprocessed. Its check byte leaves the receiver in HUNT (R148). -/
def State.serve (s : State) (p : Port) (k : Kind) (tag : Byte) (owner : State → Result) : State :=
  if s.listens p then
    s.event fun s =>
      let s := s.modPort p fun q => { q with receiver := .hunt }
      if replyRoom ≤ (s.port p).placesTaken then s else (s.checked p k owner).send p k tag
  else s

/-! ### Convoys (R150) -/

/-- The convoy a request names: 1 to 12, or 0 for the port's last convoy. -/
def State.named (s : State) (p : Port) (b : Byte) : Option Conv :=
  if h : 1 ≤ b.toNat ∧ b.toNat ≤ 12 then some ⟨b.toNat - 1, by omega⟩
  else if b.toNat = 0 then (s.port p).lastConvoy
  else none

/-- The port's last convoy becomes the number a request gives, 1 to 12. -/
def State.noteConvoy (s : State) (p : Port) (b : Byte) (c : Conv) : State :=
  if b.toNat = 0 then s else s.modPort p fun q => { q with lastConvoy := some c }

/-- Who may use a kind that names a convoy, and whether it sets the last convoy (R150). -/
inductive Reach where
  | ownersOnly
  | claiming
  | querying
  deriving DecidableEq, Repr

/-- The ownership check refuses the port (R150). -/
def State.notOwner (s : State) (p : Port) (c : Conv) (reach : Reach) : Bool :=
  reach == .ownersOnly && (s.convoy c).owner != some p && s.level p != 0

/-- The port owns the convoy. -/
def State.owns (s : State) (p : Port) (c : Conv) : Bool := (s.convoy c).owner == some p

/-- Steps 5 and 6 for a kind that names a convoy: the convoy is resolved, the ownership check made, and the request
passed on with the rest of its body (R150). -/
def State.forConvoy (s : State) (p : Port) (reach : Reach) (body : List Byte)
    (owner : State → Conv → List Byte → Result) : Result :=
  match body with
  | [] => s.refusal .badArg
  | b :: rest =>
    match s.named p b with
    | none => s.refusal .badArg
    | some c =>
      let s := if reach = .querying then s else s.noteConvoy p b c
      if s.notOwner p c reach then s.refusal .notOwner else owner s c rest

/-- A kind that carries nothing after its convoy number: a longer body is refused before its other checks (R151). -/
def State.bare (s : State) (rest : List Byte) (owner : State → Result) : Result :=
  if rest.isEmpty then owner s else s.refusal .badArg

/-! ### Lengths and releases that several requests share -/

/-- A convoy accepted: the short reply of R55. -/
def State.convoyOk (s : State) (c : Conv) : Result := s.accepted (s.shortConvoy c)

/-- The refusal TOO_SHORT with the convoy length and the length exceeded (R151). -/
def State.tooShort (s : State) (convoy room : Nat) : Result :=
  s.refusal .tooShort (twoBytes convoy ++ twoBytes room)

end Sys2Proof.Machine
end

