-- ==== Sys2Proof/Machine/MapRequests.lean ====
section
/-!
DEFINITION. The map requests (R25 to R33): READ_MAP, the five edits, COMMIT_MAP, and the end of a commit.
-/

namespace Sys2Proof.Machine

open Sys2Proof

/-- The store state check of R25: every map request is BUSY in COMMITTING. -/
def State.mapRequest (s : State) (f : Result) : Result := if s.mu.phase = .committing then s.refusal .busy else f

/-! ### READ_MAP (R26) -/

/-- READ_MAP: the entry as it stands in the working map. -/
def State.readMap (s : State) (body : List Byte) : Result :=
  s.mapRequest <|
    match mapEntryArg body with
    | none => s.refusal .badArg
    | some e => s.accepted (s.map.entryBytes e)

/-- READ_MAP (R26). -/
def execReadMap (p : Port) (tag : Byte) (body : List Byte) (s : State) : Host.Outcome State Fault Refusal :=
  .next (s.serve p { code := 0x01 } tag fun s => s.readMap body)

/-! ### EDIT_SECTION (R18, R27) -/

/-- A formed convoy's route names section `x` at some index. -/
def State.onRoute (s : State) (x : Sec) : Bool := allConvoys.any fun c => s.formed c && (s.road c).route.contains x

/-- The record of section `x` may be replaced by one of kind `k` (R27): BARRED, unheld directly and through its group,
its queue empty, on no formed convoy's route, and not a BAY with stock that would become another kind. -/
def State.editable (s : State) (x : Sec) (k : SecKind) : Bool :=
  (s.sec x).dyn == .barred && (s.sec x).queue.isEmpty && !s.onRoute x
    && !(s.map.isBay x && decide (0 < (s.sec x).stock) && k != .bay)

/-- The record of section `x` is replaced; a section that becomes a BAY starts with stock 0, and a BAY that stays one
keeps its stock (R27). -/
def State.replaceSection (s : State) (x : Sec) (r : SectionRec) : State :=
  let wasBay := s.map.isBay x
  let s := s.setMap { s.map with sections := s.map.sections.put x r }
  if wasBay && r.kind == .bay then s else s.modSec x fun q => { q with stock := 0 }

/-- EDIT_SECTION. -/
def State.editSection (s : State) (body : List Byte) : Result :=
  s.mapRequest <|
    match sectionEntry body with
    | none => s.refusal .badArg
    | some (x, r) =>
      if s.editable x r.kind then
        let t := s.replaceSection x r
        t.accepted (t.map.entryBytes (.sec x))
      else s.refusal .badState

/-- EDIT_SECTION (R27). -/
def execEditSection (p : Port) (tag : Byte) (body : List Byte) (s : State) : Host.Outcome State Fault Refusal :=
  .next (s.serve p { code := 0x02, levelZero := true } tag fun s => s.editSection body)

/-! ### EDIT_ZONE (R19, R28) -/

/-- Section `x` is HELD. -/
def State.isHeld (s : State) (x : Sec) : Bool := (s.secHolder x).isSome

/-- Some section of either zone of profile `p` is HELD (R28). -/
def State.zoneHeld (s : State) (p : ProfileNo) : Bool :=
  allSections.any fun x => profileNo (s.sectionRec x).zone == p && s.isHeld x

/-- A result with a clamp mask: CLAMPED when the mask is not 0 (R25). -/
def State.masked (s : State) (mask : Nat) (payload : List Byte) : Result :=
  ⟨s, some ⟨if mask = 0 then .ok else .clamped, payload⟩⟩

/-- EDIT_ZONE. -/
def State.editZone (s : State) (body : List Byte) : Result :=
  s.mapRequest <|
    match profileEntry body with
    | none => s.refusal .badArg
    | some (p, r) =>
      if s.zoneHeld p then s.refusal .badState
      else
        let r' := r.clamped
        let mask := flagBit (r'.speedCap != r.speedCap) 0 + flagBit (r'.approachCap != r.approachCap) 1
        let t := s.setMap { s.map with profiles := s.map.profiles.put p r' }
        t.masked mask (byte mask :: t.map.entryBytes (.profile p))

/-- EDIT_ZONE (R28). -/
def execEditZone (p : Port) (tag : Byte) (body : List Byte) (s : State) : Host.Outcome State Fault Refusal :=
  .next (s.serve p { code := 0x03, levelZero := true } tag fun s => s.editZone body)

/-! ### EDIT_DETECTOR (R29, R39) -/

/-- The inputs whose conditioning an edit has changed (R29): the input itself if its setting differs, all four of its
group if the filter code differs. -/
def LayoutMap.reported (m : LayoutMap) (d : Inp) (t : DetectorSetting) (code : Fin 8) : List Inp :=
  if m.filterCode d != code then inputsOfFilter (filterOf d)
  else if m.detectors.nth d != t then [d]
  else []

/-- The setting of input `d` and the filter code of its group are replaced, and the conditioning of the reported inputs
restarts. -/
def State.setDetector (s : State) (d : Inp) (t : DetectorSetting) (code : Fin 8) : State :=
  let changed := s.map.reported d t code
  let s := s.setMap
    { s.map with detectors := s.map.detectors.put d t, filters := s.map.filters.put (filterOf d) code }
  s.restartInputs changed

/-- EDIT_DETECTOR. -/
def State.editDetector (s : State) (body : List Byte) : Result :=
  s.mapRequest <|
    match detectorEntry body with
    | none => s.refusal .badArg
    | some (d, t, code) =>
      let u := s.setDetector d t code
      u.accepted (u.map.entryBytes (.detector d))

/-- EDIT_DETECTOR (R29). -/
def execEditDetector (p : Port) (tag : Byte) (body : List Byte) (s : State) : Host.Outcome State Fault Refusal :=
  .next (s.serve p { code := 0x04, levelZero := true } tag fun s => s.editDetector body)

/-! ### EDIT_GROUP (R30) -/

/-- Every section that a list numbers is BARRED. A number above 47, which only a stored list can hold, names no
section (notes/assumptions/17.md). -/
def State.allBarred (s : State) (l : List Nat) : Bool := (l.filterMap secOf).all fun x => (s.sec x).dyn == .barred

/-- EDIT_GROUP. -/
def State.editGroup (s : State) (body : List Byte) : Result :=
  s.mapRequest <|
    match groupEntry body with
    | none => s.refusal .badArg
    | some (g, l) =>
      if (s.grp g).holder.isNone && s.allBarred (s.map.groupList g) && s.allBarred l then
        let t := s.setMap { s.map with groups := s.map.groups.put g (.of l) }
        t.accepted (t.map.entryBytes (.grp g))
      else s.refusal .badState

/-- EDIT_GROUP (R30). -/
def execEditGroup (p : Port) (tag : Byte) (body : List Byte) (s : State) : Host.Outcome State Fault Refusal :=
  .next (s.serve p { code := 0x05, levelZero := true } tag fun s => s.editGroup body)

/-! ### EDIT_SETTINGS (R31) -/

/-- The numeric items clamped (R31). -/
def Settings.clamped (t : Settings) : Settings :=
  { t with
    levels := t.levels.map fun l => min l 3
    refresh := clampTo 100 1000 (t.refresh / 10 * 10)
    threshold := min t.threshold 15 }

/-- The items a clamp has changed: bits 0 to 3 the levels of A to D, bit 4 the refresh period, bit 5 the threshold
code. -/
def Settings.mask (sent held : Settings) : Nat :=
  flagBit (held.levels.a != sent.levels.a) 0 + flagBit (held.levels.b != sent.levels.b) 1
    + flagBit (held.levels.c != sent.levels.c) 2 + flagBit (held.levels.d != sent.levels.d) 3
    + flagBit (held.refresh != sent.refresh) 4 + flagBit (held.threshold != sent.threshold) 5

/-- A chord input of the selection is a detector of a section (R31). -/
def LayoutMap.chordClash (m : LayoutMap) (chord : Nat) : Bool :=
  (chordInputs chord).any fun d => allSections.any fun x =>
    (m.sections.nth x).entry == d || (m.sections.nth x).brake == some d

/-- The settings, clamped, may be taken (R31). -/
def LayoutMap.takesSettings (m : LayoutMap) (t : Settings) : Bool :=
  decide (t.chord ≤ 3) && !m.chordClash t.chord && Port.all.any fun p => t.levels.nth p == 0

/-- The settings record is replaced, and each block that reads it acts on it (R31): the chord is tested under the new
selection (R47), the supply is compared with the new threshold (R165), and P is recomputed when the configured period
has changed (R139). -/
def State.setSettings (s : State) (t : Settings) : State :=
  let old := s.map.settings.refresh
  let s := (s.setMap { s.map with settings := t }).updateChord.compareSupply
  if old = t.refresh then s else s.recomputePeriod

/-- EDIT_SETTINGS. -/
def State.editSettings (s : State) (body : List Byte) : Result :=
  s.mapRequest <|
    match settingsEntry body with
    | none => s.refusal .badArg
    | some t =>
      if s.map.takesSettings t.clamped then
        let u := s.setSettings t.clamped
        u.masked (t.mask t.clamped) (byte (t.mask t.clamped) :: u.map.entryBytes .settings)
      else s.refusal .badArg

/-- EDIT_SETTINGS (R31). -/
def execEditSettings (p : Port) (tag : Byte) (body : List Byte) (s : State) : Host.Outcome State Fault Refusal :=
  .next (s.serve p { code := 0x06, levelZero := true } tag fun s => s.editSettings body)

/-! ### COMMIT_MAP (R32) -/

/-- The longest time of a commit in ms (R32). -/
def commitMs : Nat := 400

/-- The commit begins: snapshot taken, COMMITTING entered, one place of the port's reply queue reserved. -/
def State.beginCommit (s : State) (p : Port) (tag : Byte) : State :=
  (s.modMu fun m => { m with phase := .committing, commit := some ⟨p, tag, m.map, commitMs⟩ }).modPort p
    fun q => { q with reserved := true }

/-- COMMIT_MAP: no reply is queued at acceptance. -/
def State.commitMap (s : State) (p : Port) (tag : Byte) (body : List Byte) : Result :=
  s.mapRequest <| if body.isEmpty then ⟨s.beginCommit p tag, none⟩ else s.refusal .badArg

/-- COMMIT_MAP (R32). -/
def execCommitMap (p : Port) (tag : Byte) (body : List Byte) (s : State) : Host.Outcome State Fault Refusal :=
  .next (s.serve p { code := 0x07, levelZero := true } tag fun s => s.commitMap p tag body)

/-- The read-back agrees with the snapshot and its check value (R32). -/
def readBackAgrees (snapshot : LayoutMap) (back : StoreContents) : Bool :=
  back == .image snapshot (checkValue snapshot)

/-- The commit's reply takes the reserved place; after a detach of the port there is no reservation and the reply is
discarded (R32). -/
def State.commitReply (s : State) (p : Port) (tag : Byte) (code : ReplyCode) : State :=
  if (s.port p).reserved then (s.modPort p fun q => { q with reserved := false }).reply p 0x07 tag ⟨code, []⟩ else s

/-- A commit `k` ends, the store read back as `back` (R32). -/
def State.finishCommit (s : State) (k : Commit) (back : StoreContents) : State :=
  let agrees := readBackAgrees k.snapshot back
  let s := s.modMu fun m =>
    { m with phase := .ready, commit := none, store := back, mapInvalid := m.mapInvalid && !agrees }
  s.commitReply k.port k.tag (if agrees then .ok else .storeFailed)

/-- The end of the commit in flight; without one nothing ends. -/
def State.commitEnd (s : State) (back : StoreContents) : State :=
  match s.mu.commit with
  | some k => if s.mu.phase = .committing then s.event fun s => s.finishCommit k back else s
  | none => s

/-- COMMIT_END (R32). -/
def execCommitEnd (back : StoreContents) (s : State) : Host.Outcome State Fault Refusal := .next (s.commitEnd back)

end Sys2Proof.Machine
end

