-- ==== Sys2Proof/Machine/Power.lean ====
section
/-!
DEFINITION. Power reset, its release and the end of the load (R20 to R24, R48, R96, R139, R166), brown-out, and the
supply (R165).
-/

namespace Sys2Proof.Machine

open Sys2Proof

/-- The supply in mV below which brown-out begins (R166). -/
def brownOutMv : Nat := 4200

/-- The supply in mV at which brown-out ends (R166). -/
def brownOutEndMv : Nat := 4400

/-- The longest time of a load in ms (R22). -/
def loadMs : Nat := 60

/-- RESETN goes low: a held power reset. -/
def State.resetLow (s : State) : State := { s.powerReset with pins := { s.pins with resetn := false } }

/-- POWER_RESET (R20). -/
def execPowerReset (s : State) : Host.Outcome State Fault Refusal := .next (s.event State.resetLow)

/-- BROWN_OUT (R166): a supply that is not below 4.2 V brings none. -/
def execBrownOut (mv : Nat) (s : State) : Host.Outcome State Fault Refusal :=
  .next (if mv < brownOutMv then s.event fun s => s.enterBrownOut mv else s)

/-- The supply is in brown-out at `mv`: below 4.2 V, or below 4.4 V when it was (R166). -/
def Pins.staysBrown (k : Pins) (mv : Nat) : Bool := decide (mv < if k.brownOut then brownOutEndMv else brownOutMv)

/-- The supply stands at `mv`, and brown-out goes with it (R166). -/
def State.supplyLine (s : State) (mv : Nat) : State :=
  { s with pins := { s.pins with supplyMv := mv, brownOut := s.pins.staysBrown mv } }

/-- A held power reset is released into LOADING when RESETN is high and the supply is out of brown-out (R20, R166). -/
def State.endHold (s : State) : State :=
  if s.mu.phase = .held ∧ s.pins.resetn = true ∧ s.pins.brownOut = false then
    s.modMu fun m => { m with phase := .loading, loadLeftMs := loadMs }
  else s

/-- RESETN is high and the supply stands at `mv` (R20). -/
def State.release (s : State) (mv : Nat) : State :=
  let s := s.supplyLine mv
  State.endHold { s with pins := { s.pins with resetn := true } }

/-- POWER_RESET_RELEASE (R20): only a held power reset is released. -/
def execPowerResetRelease (mv : Nat) (s : State) : Host.Outcome State Fault Refusal :=
  .next (if s.mu.phase = .held then s.event fun s => s.release mv else s)

/-! ### The end of the load -/

/-- The Interlock at the end of the load: BARRED where the installed map's bar flag is set, else FREE (R96). -/
def Interlock.ofMap (m : LayoutMap) : Interlock :=
  { Interlock.reset with
    sections := Tab.make 48 fun x => ⟨if (m.sections.nth x).barred then .barred else .free, 0, []⟩ }

/-- The Map Unit at the end of the load: READY with the map installed; map-invalid is set by the fall-back map, with
the stage that failed (R22 to R24). -/
def MapUnit.install (u : MapUnit) (m : LayoutMap) (stage : Nat) : MapUnit :=
  { u with phase := .ready, map := m, mapInvalid := stage != 0, failedStage := stage, loadLeftMs := 0 }

/-- MAP_INVALID with the stage that failed, while map-invalid is set (R24). -/
def State.raiseMapInvalid (s : State) (who : Audience) : State :=
  if s.mu.mapInvalid then s.raise (Notice.plain .mapInvalid s.mu.failedStage) who else s

/-- Every block starts under the installed map: inputs (R48), sections (R96), the effective refresh period (R139), the
first slot now and the first tick after 50 ms (R116, R130), and the supply compared (R165). -/
def State.startWith (s : State) (m : LayoutMap) (stage : Nat) : State :=
  let s := s.modMu fun u => u.install m stage
  let s := { s with sil := Interlock.ofMap m, hwg := { s.hwg with tickInMs := 50 } }
  let s := (s.modRds fun r => { r with slotInMs := 0 }).recomputePeriod
  let s := s.forEach (List.finRange 64) State.startInput
  s.compareLow

/-- The load ends (R22). -/
def State.finishLoad (s : State) (readable : Bool) : State :=
  (s.startWith (loaded s.mu.store readable).1 (loaded s.mu.store readable).2).raiseMapInvalid .allPorts

/-- END_OF_THE_LOAD (R22): only a load in progress ends. -/
def execEndOfTheLoad (readable : Bool) (s : State) : Host.Outcome State Fault Refusal :=
  .next (if s.mu.phase = .loading then s.event fun s => s.finishLoad readable else s)

/-! ### The supply (R165) -/

/-- The supply stands at `mv`: it may end a hold (R20, R166), and once the load has ended the supply state follows it
(R165). -/
def State.supplyAt (s : State) (mv : Nat) : State :=
  let s := s.supplyLine mv
  if s.running then s.compareSupply else s.endHold

/-- SUPPLY_LOW (R165); a supply below 4.2 V is brown-out (R166). -/
def execSupplyLow (mv : Nat) (s : State) : Host.Outcome State Fault Refusal :=
  .next (s.event fun s => if mv < brownOutMv then s.enterBrownOut mv else s.supplyAt mv)

/-- SUPPLY_OK (R165); a supply below 4.2 V is brown-out (R166). -/
def execSupplyOk (mv : Nat) (s : State) : Host.Outcome State Fault Refusal :=
  .next (s.event fun s => if mv < brownOutMv then s.enterBrownOut mv else s.supplyAt mv)

end Sys2Proof.Machine
end

