-- ==== Sys2Proof/Machine/Ports.lean ====
section
/-!
DEFINITION. Attach and detach of a console (R24, R43, R58, R145, R146, R155), what a receiver does with broken
messages (R148), and unknown kinds (R149).
-/

namespace Sys2Proof.Machine

open Sys2Proof

/-- Convoy `c` loses its owner, as by RELEASE_CLAIM: UNFORMED, it takes the defaults; formed, it becomes an orphan, and
the level-0 ports are told (R57, R58). -/
def State.orphan (s : State) (c : Conv) : State :=
  if s.formed c then
    (s.modConvoy c fun v => { v with owner := none }).raise (Notice.ofConvoy .orphaned c none) .levelZero
  else s.modConvoy c fun v => { v with owner := none, params := Params.default, thr := Thresholds.default }

/-- The seen set of port `p` is emptied (R43). -/
def State.clearSeen (s : State) (p : Port) : State := { s with dfe := { s.dfe with seen := s.dfe.seen.put p [] } }

/-- The aux queue of port `p` is emptied (R145). -/
def State.clearAux (s : State) (p : Port) : State := s.modRds fun r => { r with auxQueues := r.auxQueues.put p [] }

/-- The attach event of port `p` (R146, R155). -/
def State.attachPort (s : State) (p : Port) : State :=
  let s := s.modPort p fun q => PortState.fresh q.present q.watchMs true
  ((s.clearSeen p).clearAux p).raiseMapInvalid (.onePort p)

/-- The present line of port `p` changes, to show a console or none: its watch starts (R146). -/
def State.changeLine (s : State) (p : Port) (console : Bool) : State :=
  s.modPort p fun q => { q with present := console, watchMs := presentMs }

/-- ATTACH or DETACH as a command: it finds the present line of port `p` otherwise, and is its change; or it finds the line
so, and is the event `f` at the end of the watch. Where the line shows what the port's state is, or a power reset is held,
no watch runs and `f` does not come (R20, R146, notes/assumptions/7.md). -/
def State.lineCommand (s : State) (p : Port) (console : Bool) (f : State → State) : State :=
  if (s.port p).present = console then s.atExpiry (s.watchLeft p) f else s.changeLine p console

/-- ATTACH (R146). -/
def execAttach (p : Port) (s : State) : Host.Outcome State Fault Refusal :=
  .next (s.lineCommand p true fun s => s.attachPort p)

/-- What a port's own state becomes at detach (R155). -/
def PortState.detached (q : PortState) : PortState :=
  { q with
    attached := false, lastConvoy := none, receiver := .hunt, replies := [], reserved := false
    notices := [], flush := .stopped, tx := .idle }

/-- The detach event of port `p` (R146, R155): its own state, then the other blocks for it. -/
def State.detachPort (s : State) (p : Port) : State :=
  let s := ((s.modPort p PortState.detached).clearSeen p).clearAux p
  s.forEach (allConvoys.filter fun c => s.owns p c) State.orphan

/-- DETACH (R146). -/
def execDetach (p : Port) (s : State) : Host.Outcome State Fault Refusal :=
  .next (s.lineCommand p false fun s => s.detachPort p)

/-- INTER_BYTE_GAP (R148): the partial message is discarded, and the byte that ends the gap is examined in HUNT. -/
def execInterByteGap (p : Port) (b : Byte) (s : State) : Host.Outcome State Fault Refusal :=
  .next (if s.listens p then s.event fun s => s.modPort p fun q => { q with receiver := (Receiver.hunt.onByte b).1 }
    else s)

/-- MESSAGE_DISCARDED (R148): no reply and no other effect; the receiver is in HUNT. -/
def execMessageDiscarded (p : Port) (s : State) : Host.Outcome State Fault Refusal :=
  .next (if s.listens p then s.event fun s => s.modPort p fun q => { q with receiver := .hunt } else s)

/-- UNKNOWN_KIND (R149 step 3). -/
def execUnknownKind (p : Port) (kind tag : Byte) (_body : List Byte) (s : State) : Host.Outcome State Fault Refusal :=
  .next (s.serve p { code := kind } tag fun s => s.refusal .unknownKind)

end Sys2Proof.Machine
end

