-- ==== Sys2Proof/Machine/ConvoyRequests.lean ====
section
/-!
DEFINITION. The convoy requests of Chapter 4 (R55 to R69): CLAIM, RELEASE_CLAIM, FORM, REFORM, DISBAND, SET_PARAMS,
HOLD, UNHOLD, CLEAR_FAULT and QUERY_CONVOY.
-/

namespace Sys2Proof.Machine

open Sys2Proof

/-! ### Claiming (R56, R57) -/

/-- A convoy stands still: STANDING, ARRIVED or STOPPED (R56, R63). -/
def ConvoyState.standsStill : ConvoyState → Bool
  | .unformed => false
  | .standing => true
  | .rolling => false
  | .waiting => false
  | .arriving => false
  | .arrived => true
  | .held => false
  | .stopped => true

/-- CLAIM of `c` by port `p` is accepted (R56). -/
def State.claimable (s : State) (p : Port) (c : Conv) : Bool :=
  (s.convoy c).owner.isNone && (!s.formed c || s.level p == 0 || (s.convoy c).state.standsStill)

/-- CLAIM. -/
def State.claim (s : State) (p : Port) (c : Conv) : Result :=
  if s.claimable p c then
    let t := s.modConvoy c fun v => { v with owner := some p }
    t.accepted (t.fullConvoy c)
  else s.refusal .badState

/-- CLAIM (R56). -/
def execClaim (p : Port) (tag : Byte) (body : List Byte) (s : State) : Host.Outcome State Fault Refusal :=
  .next (s.serve p { code := 0x10 } tag fun s =>
    s.forConvoy p .claiming body fun s c rest => s.bare rest fun s => s.claim p c)

/-- RELEASE_CLAIM: refused to any port but the owner. -/
def State.releaseClaim (s : State) (p : Port) (c : Conv) : Result :=
  if s.owns p c then (s.orphan c).convoyOk c else s.refusal .notOwner

/-- RELEASE_CLAIM (R57). -/
def execReleaseClaim (p : Port) (tag : Byte) (body : List Byte) (s : State) : Host.Outcome State Fault Refusal :=
  .next (s.serve p { code := 0x11 } tag fun s =>
    s.forConvoy p .ownersOnly body fun s c rest => s.bare rest fun s => s.releaseClaim p c)

/-! ### FORM (R59, R60) -/

/-- The length in cm of section `x`. -/
def State.secLength (s : State) (x : Sec) : Nat := (s.sectionRec x).length

/-- The convoy length of a member list with the present stand gap of `c` (R52). -/
def State.lengthOf (s : State) (c : Conv) (ms : List Member) : Nat := convoyLength ms (s.convoy c).params.standGap

/-- The section is FREE or PARKED. -/
def SecState.unoccupied : SecState → Bool
  | .free => true
  | .held _ => false
  | .clearing _ => false
  | .parked => true
  | .barred => false
  | .blocked => false

/-- The first truck of a list that is not FREE (R59 check 7). -/
def State.firstTaken (s : State) (ms : List Member) : Option Addr :=
  (truckAddrs ms).find? fun a => s.usage a != .free

/-- The stock of section `x` falls by `n` and rises by `m`, clamped to 0 to 8; a section that is not a BAY keeps its
stock (R60, R62, R63). -/
def State.moveStock (s : State) (x : Sec) (m n : Nat) : State :=
  if s.map.isBay x then s.modSec x fun q => { q with stock := min (q.stock + m - n) 8 } else s

/-- FORM accepted (R60). -/
def State.formConvoy (s : State) (c : Conv) (x : Sec) (ms : List Member) : State :=
  let s := s.modConvoy c fun v => { v with state := .standing, members := ms, fault := none, resume := none }
  let s := (s.holdSec c x).modRoad c fun _ => ⟨[x], .idle, .idle⟩
  let s := s.moveStock x 0 (trailerCount ms)
  let s := (s.modTrack c fun _ => Track.blank).unitsDown c
  (s.forEach (truckAddrs ms) fun s a => s.activate c a).recomputePeriod

/-- Checks 3 to 8 of FORM (R59), in order. -/
def State.formIn (s : State) (c : Conv) (x : Sec) (ms : List Member) : Result :=
  if (s.sectionRec x).group.isSome then s.refusal .badArg
  else if s.formed c then s.refusal .badState
  else if s.hls.halted then s.refusal .badState
  else if !(s.sec x).dyn.unoccupied then s.refusal .badState
  else
    match s.firstTaken ms with
    | some a => s.refusal .badState [byte (radioAddress a)]
    | none =>
      if s.secLength x < s.lengthOf c ms then s.tooShort (s.lengthOf c ms) (s.secLength x)
      else (s.formConvoy c x ms).convoyOk c

/-- FORM: check 1, then check 2 with the index at which a member list fails (R59, R151). -/
def State.form (s : State) (p : Port) (c : Conv) (rest : List Byte) : Result :=
  if s.owns p c then
    match rest with
    | [] => s.refusal .badArg
    | b :: ms =>
      match memberPairs ms, secArg b with
      | some ps, some x =>
        match memberList ps with
        | .error i => s.refusal .badArg [byte i]
        | .ok l => s.formIn c x l
      | _, _ => s.refusal .badArg
  else s.refusal .notOwner

/-- FORM (R59, R60). -/
def execForm (p : Port) (tag : Byte) (body : List Byte) (s : State) : Host.Outcome State Fault Refusal :=
  .next (s.serve p { code := 0x12 } tag fun s => s.forConvoy p .ownersOnly body fun s c rest => s.form p c rest)

/-! ### REFORM (R61, R62) -/

/-- Every truck of the new list is FREE or a member of `c` (R61 check 3). -/
def State.trucksFor (s : State) (c : Conv) (ms : List Member) : Bool :=
  (truckAddrs ms).all fun a => s.usage a == .free || (truckAddrs (s.members c)).contains a

/-- The lesser of the length of route[head] and the length of the last entry of the route of `c` (R61 check 5). -/
def State.roomFor (s : State) (c : Conv) (x : Sec) : Nat :=
  match (s.road c).route.getLast? with
  | some y => min (s.secLength x) (s.secLength y)
  | none => s.secLength x

/-- REFORM accepted, the convoy standing in `x` (R62). -/
def State.reformConvoy (s : State) (c : Conv) (x : Sec) (ms : List Member) : State :=
  let old := s.members c
  let s := s.forEach ((truckAddrs old).filter fun a => !(truckAddrs ms).contains a) State.retire
  let s := s.forEach ((truckAddrs ms).filter fun a => !(truckAddrs old).contains a) fun s a => s.activate c a
  let s := s.modConvoy c fun v => { v with members := ms }
  ((s.moveStock x (trailerCount old) (trailerCount ms)).unitsDown c).recomputePeriod

/-- REFORM is possible in the convoy's state: STANDING or ARRIVED, the tail equal to the head (R61 check 2). -/
def State.reformable (s : State) (c : Conv) : Bool :=
  ((s.convoy c).state == .standing || (s.convoy c).state == .arrived) && (s.track c).tail == (s.track c).head

/-- Checks 2 to 5 of REFORM (R61), in order. -/
def State.reformWith (s : State) (c : Conv) (ms : List Member) : Result :=
  match s.headSec? c with
  | none => s.refusal .badState
  | some x =>
    if !s.reformable c then s.refusal .badState
    else if !s.trucksFor c ms then s.refusal .badState
    else if !s.map.isBay x && decide (trailerCount ms < trailerCount (s.members c)) then s.refusal .badState
    else if s.roomFor c x < s.lengthOf c ms then s.tooShort (s.lengthOf c ms) (s.roomFor c x)
    else (s.reformConvoy c x ms).convoyOk c

/-- REFORM. -/
def State.reform (s : State) (c : Conv) (rest : List Byte) : Result :=
  match memberPairs rest with
  | none => s.refusal .badArg
  | some ps =>
    match memberList ps with
    | .error i => s.refusal .badArg [byte i]
    | .ok ms => s.reformWith c ms

/-- REFORM (R61, R62). -/
def execReform (p : Port) (tag : Byte) (body : List Byte) (s : State) : Host.Outcome State Fault Refusal :=
  .next (s.serve p { code := 0x13 } tag fun s => s.forConvoy p .ownersOnly body fun s c rest => s.reform c rest)

/-! ### DISBAND (R63) -/

/-- The record of a convoy that has been disbanded: a claimed one keeps its owner and its parameters, an unclaimed one
takes the defaults (R53, R63 step 5). -/
def Convoy.disbanded (v : Convoy) : Convoy :=
  match v.owner with
  | some _ => { v with state := .unformed, members := [], fault := none, resume := none }
  | none => Convoy.blank

/-- Step 1 of R63: the trailers of a convoy that stands whole in a BAY become its stock. -/
def State.stockFrom (s : State) (c : Conv) : State :=
  match s.headSec? c with
  | some x => if (s.track c).tail = (s.track c).head then s.moveStock x (trailerCount (s.members c)) 0 else s
  | none => s

/-- DISBAND accepted (R63); the scans of the released resources come last (notes/assumptions/13.md). -/
def State.disbandConvoy (s : State) (c : Conv) : State :=
  let s := s.stockFrom c
  let held := s.everythingOf c
  let s := ((s.withdraw c).cancelWatch c).releaseList c held
  let s := (s.modRoad c fun _ => Road.blank).modTrack c fun _ => Track.blank
  let s := s.forEach (truckAddrs (s.members c)) State.retire
  let s := (s.modConvoy c Convoy.disbanded).recomputePeriod
  s.scanAll held

/-- DISBAND. -/
def State.disband (s : State) (c : Conv) : Result :=
  if (s.convoy c).state.standsStill then (s.disbandConvoy c).convoyOk c else s.refusal .badState

/-- DISBAND (R63). -/
def execDisband (p : Port) (tag : Byte) (body : List Byte) (s : State) : Host.Outcome State Fault Refusal :=
  .next (s.serve p { code := 0x14 } tag fun s =>
    s.forConvoy p .ownersOnly body fun s c rest => s.bare rest fun s => s.disband c)

/-! ### SET_PARAMS (R64, R65, R119) -/

/-- The values are stored, and the new Vmax takes effect (R65, R119). -/
def State.storeParams (s : State) (c : Conv) (v : Params × Thresholds) : State :=
  (s.modConvoy c fun r => { r with params := v.1, thr := v.2 }).vmaxChanged c

/-- SET_PARAMS. -/
def State.setParams (s : State) (c : Conv) (rest : List Byte) : Result :=
  match paramValues rest with
  | none => s.refusal .badArg
  | some vs =>
    if (s.convoy c).owner.isNone && !s.formed c then s.refusal .badState
    else
      let v := orderedValues vs
      let mask := differMask 0 vs (heldValues v.1 v.2)
      let t := s.storeParams c v
      t.masked mask (t.shortConvoy c ++ twoBytes mask ++ (t.convoy c).paramBytes)

/-- SET_PARAMS (R64). -/
def execSetParams (p : Port) (tag : Byte) (body : List Byte) (s : State) : Host.Outcome State Fault Refusal :=
  .next (s.serve p { code := 0x15 } tag fun s => s.forConvoy p .ownersOnly body fun s c rest => s.setParams c rest)

/-! ### HOLD and UNHOLD (R66, R67) -/

/-- The resume-to state of a convoy that HOLD finds in a state; none where HOLD is refused (R66). -/
def ConvoyState.resumeAs : ConvoyState → Option Resume
  | .unformed => none
  | .standing => none
  | .rolling => some .rolling
  | .waiting => some .rolling
  | .arriving => some .arriving
  | .arrived => none
  | .held => none
  | .stopped => none

/-- HOLD accepted (R66, R110). -/
def State.holdConvoy (s : State) (c : Conv) (r : Resume) : State :=
  ((s.modConvoy c fun v => { v with state := .held, resume := some r }).hardStopAll c).unitsDown c

/-- HOLD. -/
def State.hold (s : State) (c : Conv) : Result :=
  match (s.convoy c).state.resumeAs with
  | some r => (s.holdConvoy c r).convoyOk c
  | none => s.refusal .badState

/-- HOLD (R66). -/
def execHold (p : Port) (tag : Byte) (body : List Byte) (s : State) : Host.Outcome State Fault Refusal :=
  .next (s.serve p { code := 0x16 } tag fun s =>
    s.forConvoy p .ownersOnly body fun s c rest => s.bare rest fun s => s.hold c)

/-- UNHOLD with resume-to ROLLING (R67, R77, R109): the request for road, the leader target as for ROLLING, then
WAITING if it is 0 and ROLLING otherwise, and the units (notes/assumptions/15.md). Into WAITING the units follow step 3
of R109, which marks no STOP frame; R67's stand-down is read as that step (notes/assumptions/34.md). -/
def State.unholdRolling (s : State) (c : Conv) : State :=
  let s := s.request c
  let target := s.leaderTarget c .rolling
  let s := (s.retarget c .rolling).modConvoy c fun v => { v with resume := none }
  let s := if target = 0 then (s.setState c .waiting).raiseWaiting c (.ownerOf c) else s.setState c .rolling
  s.restartUnits c

/-- UNHOLD with resume-to ARRIVING (R67, R107, R109). -/
def State.unholdArriving (s : State) (c : Conv) : State :=
  let s := s.request c
  let s := (s.retarget c .arriving).modConvoy c fun v => { v with state := .arriving, resume := none }
  (s.restartUnits c).checkArrived c

/-- UNHOLD accepted. -/
def State.unholdConvoy (s : State) (c : Conv) : State :=
  match (s.convoy c).resume with
  | some .arriving => s.unholdArriving c
  | some .rolling => s.unholdRolling c
  | none => s.unholdRolling c

/-- UNHOLD. -/
def State.unhold (s : State) (c : Conv) : Result :=
  if (s.convoy c).state != .held || s.hls.halted then s.refusal .badState else (s.unholdConvoy c).convoyOk c

/-- UNHOLD (R67). -/
def execUnhold (p : Port) (tag : Byte) (body : List Byte) (s : State) : Host.Outcome State Fault Refusal :=
  .next (s.serve p { code := 0x17 } tag fun s =>
    s.forConvoy p .ownersOnly body fun s c rest => s.bare rest fun s => s.unhold c)

/-! ### CLEAR_FAULT (R68, R90, R112) -/

/-- The Tracker's items lowered by a shift of the route (R98). -/
def Track.shifted (t : Track) (n : Nat) : Track :=
  { t with head := t.head - n, tail := t.tail - n, records := t.records.map fun r => { r with j := r.j - n } }

/-- Every record whose count is below N has its gap timer restarted from 0 (R112). -/
def State.restartTimers (s : State) (c : Conv) : State :=
  s.modTrack c fun t =>
    { t with records := t.records.map fun r => if r.n < s.memberCount c then s.startedTimer c r else r }

/-- CLEAR_FAULT accepted (R68): the road beyond the head is released, queue entry and watch are withdrawn, the route is
cut to the entries from tail to head, and the gap timers are restarted. What lies beyond the head is judged on the route
before the cut: a group with an entry behind the tail counts as occupied (R89) and stays HELD, the model's choice
(notes/assumptions/36.md). -/
def State.clearFaultOf (s : State) (c : Conv) : State :=
  let t := s.track c
  let ahead := s.aheadOf c
  let s := s.modConvoy c fun v => { v with fault := none, state := .standing }
  let s := ((s.withdraw c).cancelWatch c).releaseList c ahead
  let s := s.modRoad c fun w => { w with route := (w.route.take (t.head + 1)).drop t.tail }
  let s := ((s.modTrack c fun t => t.shifted t.tail).restartTimers c).evalWatch c
  s.scanAll ahead

/-- The fault is LOST, which any port that passed the ownership check may clear (R68 check 2). -/
def Convoy.faultIsLost (v : Convoy) : Bool :=
  match v.fault with
  | some f => f.kind == .lost
  | none => false

/-- CLEAR_FAULT. -/
def State.clearFault (s : State) (p : Port) (c : Conv) : Result :=
  if (s.convoy c).state != .stopped then s.refusal .badState
  else if !(s.convoy c).faultIsLost && s.level p != 0 then s.refusal .notPermitted
  else (s.clearFaultOf c).convoyOk c

/-- CLEAR_FAULT (R68). -/
def execClearFault (p : Port) (tag : Byte) (body : List Byte) (s : State) : Host.Outcome State Fault Refusal :=
  .next (s.serve p { code := 0x18 } tag fun s =>
    s.forConvoy p .ownersOnly body fun s c rest => s.bare rest fun s => s.clearFault p c)

/-! ### QUERY_CONVOY (R69) -/

/-- QUERY_CONVOY: the convoy as it stands. -/
def State.queryConvoy (s : State) (c : Conv) : Result := s.accepted (s.fullConvoy c)

/-- QUERY_CONVOY (R69). -/
def execQueryConvoy (p : Port) (tag : Byte) (body : List Byte) (s : State) : Host.Outcome State Fault Refusal :=
  .next (s.serve p { code := 0x19 } tag fun s =>
    s.forConvoy p .querying body fun s c rest => s.bare rest fun s => s.queryConvoy c)

end Sys2Proof.Machine
end

