-- ==== Sys2Proof/Machine/RoadRequests.lean ====
section
/-!
DEFINITION. The requests of Chapter 5: SET_ROUTE (R74, R75), START (R76), RETRY (R79), BAR, UNBAR, CLEAR_SECTION,
SET_STOCK and QUERY_SECTION (R91 to R95).
-/

namespace Sys2Proof.Machine

open Sys2Proof

/-! ### SET_ROUTE: checks (R74) -/

/-- Entry `i` of a list fails the entry tests of R74 against the occupied run `run`. -/
def LayoutMap.entryFails (m : LayoutMap) (run l : List Sec) (i : Nat) : Bool :=
  match l[i]? with
  | none => false
  | some x =>
    (decide (i < run.length) && run[i]? != some x) || (l.take i).contains x
      || (match i, l[i - 1]? with
        | 0, _ => false
        | _ + 1, some y => !m.isSuccessor y x || (m.isFork y && m.isFork x)
        | _ + 1, none => false)

/-- The last entry of the list has no brake detector. -/
def LayoutMap.noBrakeAtEnd (m : LayoutMap) (l : List Sec) : Bool :=
  match l.getLast? with
  | some x => (m.sections.nth x).brake.isNone
  | none => false

/-- The first index at which a list fails as a route, if it fails (R74 check 4). A list that holds no more than `n` entries
and ends without a brake detector fails at `n` and at its last index, of which the last index comes first. -/
def LayoutMap.routeFails (m : LayoutMap) (run l : List Sec) : Option Nat :=
  match (List.range l.length).find? fun i => m.entryFails run l i with
  | some i => some i
  | none =>
    if m.noBrakeAtEnd l then some (l.length - 1)
    else if l.length ≤ run.length then some run.length
    else none

/-- The occupied run of convoy `c`: the sections at route indices tail to head. -/
def State.occupiedRun (s : State) (c : Conv) : List Sec :=
  ((s.road c).route.take ((s.track c).head + 1)).drop (s.track c).tail

/-- A route may be set in the state: STANDING, WAITING or ARRIVED (R74 check 3). -/
def ConvoyState.routable : ConvoyState → Bool
  | .unformed => false
  | .standing => true
  | .rolling => false
  | .waiting => true
  | .arriving => false
  | .arrived => true
  | .held => false
  | .stopped => false

/-! ### SET_ROUTE: acceptance (R75) -/

/-- How many entries two lists share from their front. -/
def sharedLength : List Sec → List Sec → Nat
  | a :: l, b :: k => if a = b then sharedLength l k + 1 else 0
  | _, _ => 0

/-- The parting point: the lowest index at or beyond `n` at which the routes differ or one has no entry (R75
step 1). -/
def partingPoint (n : Nat) (old new : List Sec) : Nat := n + sharedLength (old.drop n) (new.drop n)

/-- What step 2 of R75 releases: sections held at an old index at or beyond the parting point, and groups that no new
entry below it names. -/
def State.partedFrom (s : State) (c : Conv) (old new : List Sec) (p : Nat) : List Resource :=
  ((old.drop p).filter (s.holdsAlone c)).map .sec
    ++ ((s.heldGroups c).filter fun g => !(new.take p).any fun x => (s.sectionRec x).group == some g).map .grp

/-- The watch after steps 3 and 4 of R75: ended at index p − 1 or beyond, else shifted with the route. Its index is
counted from the old route's start, `tail` entries before the new one's. -/
def Watch.parted (w : Watch) (tail p : Nat) : Watch :=
  match w with
  | .idle => .idle
  | .awaiting m => if p ≤ m - tail + 1 then .idle else .awaiting (m - tail)
  | .settling m t => if p ≤ m - tail + 1 then .idle else .settling (m - tail) t
  | .effective m => if p ≤ m - tail + 1 then .idle else .effective (m - tail)

/-- The section of the queue entry that convoy `c` keeps under its new route with the index it gets (R75 step 6). -/
def State.keptEntry (s : State) (c : Conv) : Option (Resource × Nat × Sec) :=
  match (s.road c).req, s.nextIndex c with
  | .queued r, some (k, x) =>
    if s.map.resourceOf x = r ∧ k ≤ (s.track c).head + (s.convoy c).params.look then some (r, k, x) else none
  | _, _ => none

/-- Step 6 of R75: the entry of `c` stays in its place, updated. -/
def State.updateEntry (s : State) (c : Conv) (r : Resource) (k : Nat) (x : Sec) : State :=
  s.modQueue r fun q => q.map fun e => if e.conv = c then { e with sec := x, index := k } else e

/-- Steps 1 to 5 of R75, without the scans of what step 2 releases. -/
def State.installRoute (s : State) (c : Conv) (new : List Sec) (rs : List Resource) (p : Nat) : State :=
  let tail := (s.track c).tail
  let s := s.releaseList c rs
  let s := s.modRoad c fun w => { w with route := new, watch := w.watch.parted tail p }
  let s := s.modTrack c fun t => t.shifted tail
  (s.updateAllBranches c).evalWatch c

/-- ARRIVED becomes STANDING (R75 step 7). -/
def State.leaveArrived (s : State) (c : Conv) : State :=
  if (s.convoy c).state = .arrived then s.setState c .standing else s

/-- A refusal by the deadlock check is cleared (R75 step 7). -/
def State.clearRefusal (s : State) (c : Conv) : State :=
  if (s.road c).req = .refused then s.modRoad c fun w => { w with req := .idle } else s

/-- A convoy that is WAITING makes its request for road (R75 step 7). -/
def State.requestIfWaiting (s : State) (c : Conv) : State := if (s.convoy c).state = .waiting then s.request c else s

/-- Steps 6 and 7 of R75, a withdrawal clearing a refusal too, with the scans of what step 2 released. The scans of the
released resources and of a kept entry's resource follow the changes; a WAITING convoy without an entry then makes its
request (notes/assumptions/13.md). -/
def State.finishRoute (s : State) (c : Conv) (rs : List Resource) : State :=
  match s.keptEntry c with
  | some (r, k, x) => ((s.updateEntry c r k x).leaveArrived c).scanAll (r :: rs.filter fun y => y != r)
  | none => (((s.withdraw c).leaveArrived c).scanAll rs).requestIfWaiting c

/-- SET_ROUTE accepted (R75). -/
def State.setRoute (s : State) (c : Conv) (new : List Sec) : State :=
  let old := (s.road c).route.drop (s.track c).tail
  let p := partingPoint ((s.track c).head - (s.track c).tail + 1) old new
  let rs := s.partedFrom c old new p
  (s.installRoute c new rs p).finishRoute c rs

/-- Checks 3 to 5 of SET_ROUTE (R74). -/
def State.routeWith (s : State) (c : Conv) (l : List Sec) : Result :=
  if !(s.convoy c).state.routable then s.refusal .badState
  else
    match s.map.routeFails (s.occupiedRun c) l, l.getLast? with
    | some i, _ => s.refusal .routeInvalid [byte i]
    | none, none => s.refusal .badArg
    | none, some x =>
      if s.secLength x < s.lengthOf c (s.members c) then s.tooShort (s.lengthOf c (s.members c)) (s.secLength x)
      else (s.setRoute c l).convoyOk c

/-- SET_ROUTE: checks 1 and 2 of R74. -/
def State.routeRequest (s : State) (p : Port) (c : Conv) (rest : List Byte) : Result :=
  if s.owns p c then
    match routeArg rest with
    | none => s.refusal .badArg
    | some l => s.routeWith c l
  else s.refusal .notOwner

/-- SET_ROUTE (R74, R75). -/
def execSetRoute (p : Port) (tag : Byte) (body : List Byte) (s : State) : Host.Outcome State Fault Refusal :=
  .next (s.serve p { code := 0x20 } tag fun s =>
    s.forConvoy p .ownersOnly body fun s c rest => s.routeRequest p c rest)

/-! ### START and RETRY (R76, R79) -/

/-- START accepted (R76, R83, R109, R113). -/
def State.startConvoy (s : State) (c : Conv) : State :=
  let s := ((s.setState c .rolling).updateAllBranches c).evalWatch c
  ((s.request c).recomputeTarget c).restartUnits c

/-- START. -/
def State.start (s : State) (c : Conv) : Result :=
  if (s.convoy c).state != .standing || (s.nextSec? c).isNone || s.hls.halted then s.refusal .badState
  else (s.startConvoy c).convoyOk c

/-- START (R76). -/
def execStart (p : Port) (tag : Byte) (body : List Byte) (s : State) : Host.Outcome State Fault Refusal :=
  .next (s.serve p { code := 0x21 } tag fun s =>
    s.forConvoy p .ownersOnly body fun s c rest => s.bare rest fun s => s.start c)

/-- RETRY. -/
def State.retry (s : State) (c : Conv) : Result :=
  if (s.road c).req = .refused then ((s.clearRefusal c).request c).convoyOk c else s.refusal .badState

/-- RETRY (R79). -/
def execRetry (p : Port) (tag : Byte) (body : List Byte) (s : State) : Host.Outcome State Fault Refusal :=
  .next (s.serve p { code := 0x22 } tag fun s =>
    s.forConvoy p .ownersOnly body fun s c rest => s.bare rest fun s => s.retry c)

/-! ### Supervisor requests (R91 to R94) -/

/-- The bar flag of section `x`, as the Map Unit sets it (R2). -/
def State.setBarFlag (s : State) (x : Sec) (b : Bool) : State :=
  s.setMap { s.map with sections := s.map.sections.put x { s.map.sections.nth x with barred := b } }

/-- Section `x` may be barred: FREE, PARKED or BLOCKED, on no formed convoy's route (R91). -/
def State.barrable (s : State) (x : Sec) : Bool :=
  ((s.sec x).dyn.unoccupied || (s.sec x).dyn == .blocked) && !s.onRoute x

/-- BAR. -/
def State.barSection (s : State) (body : List Byte) : Result :=
  match onlySection body with
  | none => s.refusal .badArg
  | some x =>
    if s.barrable x then ((s.setBarFlag x true).modSec x fun q => { q with dyn := .barred }).accepted
    else s.refusal .badState

/-- BAR (R91). -/
def execBar (p : Port) (tag : Byte) (body : List Byte) (s : State) : Host.Outcome State Fault Refusal :=
  .next (s.serve p { code := 0x23, levelZero := true } tag fun s => s.barSection body)

/-- The reason of a failed single-section check: condition number, and the other section or 0xFF (R14, R151). -/
def reasonBytes (r : Nat × Option Sec) : List Byte := [byte r.1, byte (r.2.elim 0xFF Fin.val)]

/-- UNBAR. -/
def State.unbarSection (s : State) (body : List Byte) : Result :=
  match onlySection body with
  | none => s.refusal .badArg
  | some x =>
    if (s.sec x).dyn != .barred then s.refusal .badState
    else
      match s.map.singleCheck x with
      | some r => s.refusal .badArg (reasonBytes r)
      | none => (((s.setBarFlag x false).toRest x).scanFor x).accepted

/-- UNBAR (R92). -/
def execUnbar (p : Port) (tag : Byte) (body : List Byte) (s : State) : Host.Outcome State Fault Refusal :=
  .next (s.serve p { code := 0x24, levelZero := true } tag fun s => s.unbarSection body)

/-- CLEAR_SECTION. -/
def State.clearSection (s : State) (body : List Byte) : Result :=
  match onlySection body with
  | none => s.refusal .badArg
  | some x => if (s.sec x).dyn = .blocked then ((s.toRest x).scanFor x).accepted else s.refusal .badState

/-- CLEAR_SECTION (R93). -/
def execClearSection (p : Port) (tag : Byte) (body : List Byte) (s : State) : Host.Outcome State Fault Refusal :=
  .next (s.serve p { code := 0x25, levelZero := true } tag fun s => s.clearSection body)

/-- The stock of section `x` becomes `n`; an unheld bay in service moves between FREE and PARKED with it (R94). -/
def State.putStock (s : State) (x : Sec) (n : Nat) : State :=
  let s := s.modSec x fun q => { q with stock := n }
  match (s.sec x).dyn with
  | .free => s.toRest x
  | .parked => if n = 0 then (s.toRest x).scanFor x else s
  | .held _ => s
  | .clearing _ => s
  | .barred => s
  | .blocked => s

/-- SET_STOCK. -/
def State.setStock (s : State) (body : List Byte) : Result :=
  match stockArg body with
  | none => s.refusal .badArg
  | some (x, n) =>
    if s.map.isBay x then
      let t := s.putStock x (min n 8)
      t.accepted [byte (t.sec x).stock]
    else s.refusal .badArg

/-- SET_STOCK (R94). -/
def execSetStock (p : Port) (tag : Byte) (body : List Byte) (s : State) : Host.Outcome State Fault Refusal :=
  .next (s.serve p { code := 0x26, levelZero := true } tag fun s => s.setStock body)

/-! ### QUERY_SECTION (R95) -/

/-- QUERY_SECTION: the section as it stands. -/
def State.querySection (s : State) (body : List Byte) : Result :=
  match onlySection body with
  | none => s.refusal .badArg
  | some x => s.accepted (s.sectionStatus x)

/-- QUERY_SECTION (R95). -/
def execQuerySection (p : Port) (tag : Byte) (body : List Byte) (s : State) : Host.Outcome State Fault Refusal :=
  .next (s.serve p { code := 0x27 } tag fun s => s.querySection body)

end Sys2Proof.Machine
end

