-- ==== Sys2Proof/Machine/PartRequests.lean ====
section
/-!
DEFINITION. The requests that name no convoy and no section: QUERY_DETECTORS (R44), AUX (R140), SET_NOTIFY (R152,
R157), ALL_STOP (R162), RESUME_ALL (R163) and LAYOUT_RESET (R164).
-/

namespace Sys2Proof.Machine

open Sys2Proof

/-! ### QUERY_DETECTORS (R44) -/

/-- The payload of QUERY_DETECTORS for port `p`. -/
def State.detectorReport (s : State) (p : Port) : List Byte :=
  inputBytes (fun d => (s.input d).cond.accepted) ++ inputBytes (fun d => (s.dfe.seen.nth p).contains d)
    ++ [byte (flagBit s.dfe.chord 0)]

/-- QUERY_DETECTORS: the report, and the port's seen set emptied. -/
def State.queryDetectors (s : State) (p : Port) (body : List Byte) : Result :=
  if body.isEmpty then (s.clearSeen p).accepted (s.detectorReport p) else s.refusal .badArg

/-- QUERY_DETECTORS (R44). -/
def execQueryDetectors (p : Port) (tag : Byte) (body : List Byte) (s : State) : Host.Outcome State Fault Refusal :=
  .next (s.serve p { code := 0x08 } tag fun s => s.queryDetectors p body)

/-! ### AUX (R140, R141) -/

/-- The most entries of a port's aux queue (R141). -/
def auxRoom : Nat := 8

/-- The truck is ACTIVE in a convoy that port `p` owns (R140 check 2). -/
def State.ownsTruck (s : State) (p : Port) (a : Addr) : Bool :=
  match s.usage a with
  | .active c => s.owns p c
  | .free => false
  | .retiring _ => false

/-- The aux queue of port `p`. -/
def State.auxQueue (s : State) (p : Port) : List AuxEntry := s.rds.auxQueues.nth p

/-- Checks 2 to 5 of AUX (R140), in order, and the entry that joins. -/
def State.auxWith (s : State) (p : Port) (e : AuxEntry) : Result :=
  if !s.ownsTruck p e.addr && s.level p != 0 then s.refusal .notOwner
  else if !s.isActive e.addr then s.refusal .badState
  else if e.coupler && (s.speed e.addr).cmd != 0 then s.refusal .badState
  else if auxRoom ≤ (s.auxQueue p).length then s.refusal .queueFull
  else
    let t := s.modRds fun r => { r with auxQueues := r.auxQueues.put p (r.auxQueues.nth p ++ [e]) }
    t.accepted [byte (t.auxQueue p).length]

/-- AUX. -/
def State.auxRequest (s : State) (p : Port) (body : List Byte) : Result :=
  match auxArg body with
  | none => s.refusal .badArg
  | some e => s.auxWith p e

/-- AUX (R140). -/
def execAux (p : Port) (tag : Byte) (body : List Byte) (s : State) : Host.Outcome State Fault Refusal :=
  .next (s.serve p { code := 0x30 } tag fun s => s.auxRequest p body)

/-! ### SET_NOTIFY (R152, R157) -/

/-- The standing condition of convoy `c`: WAITING, or STOPPED with a stored LOST fault (R157). -/
def State.standing? (s : State) (c : Conv) : Option Notice :=
  match (s.convoy c).state, (s.convoy c).fault with
  | .waiting, _ => some (Notice.ofConvoy .waiting c (s.nextSec? c))
  | .stopped, some f => if f.kind = .lost then some ⟨.lost, some c, some f.sec, none, some f.member, 0⟩ else none
  | _, _ => none

/-- The standing conditions that concern port `p`, in the order in which they are queued (R157). -/
def State.standingFor (s : State) (p : Port) : List Notice :=
  (allConvoys.filter fun c => (s.recipients (.ownerOf c)).contains p).filterMap s.standing?
    ++ (if s.hls.supplyLow then [Notice.plain .supplyLow] else [])

/-- The notify setting of port `p` becomes `on`, `level`, and the standing conditions whose severity is newly accepted
are queued (R152, R157). -/
def State.setNotifyOf (s : State) (p : Port) (on : Bool) (level : Nat) : State :=
  let old := s.port p
  let again := (s.standingFor p).filter fun n => !acceptsSeverity old.notifyOn old.notifyLevel n.kind.severity
  let s := s.modPort p fun q => { q with notifyOn := on, notifyLevel := level }
  s.forEach again fun s n => s.modPort p fun q => q.notify n

/-- SET_NOTIFY. -/
def State.setNotify (s : State) (p : Port) (body : List Byte) : Result :=
  match notifyArg body with
  | none => s.refusal .badArg
  | some (on, level) => (s.setNotifyOf p on level).accepted [byte (flagBit on 0), byte level]

/-- SET_NOTIFY (R152). -/
def execSetNotify (p : Port) (tag : Byte) (body : List Byte) (s : State) : Host.Outcome State Fault Refusal :=
  .next (s.serve p { code := 0x31 } tag fun s => s.setNotify p body)

/-! ### ALL_STOP and RESUME_ALL (R162, R163) -/

/-- ALL_STOP. -/
def State.allStop (s : State) (body : List Byte) : Result :=
  if body.isEmpty then (s.causePresent .request).accepted else s.refusal .badArg

/-- ALL_STOP (R162). -/
def execAllStop (p : Port) (tag : Byte) (body : List Byte) (s : State) : Host.Outcome State Fault Refusal :=
  .next (s.serve p { code := 0x38, haltPayload := true } tag fun s => s.allStop body)

/-- RESUME_ALL accepted, in the four steps of R163. -/
def State.resumeLayout (s : State) : State :=
  let s := s.modHls fun h => { h with request := false, halted := false }
  ((s.scanAll allResources).restartAll).raise (Notice.plain .resumed) .allPorts

/-- RESUME_ALL. -/
def State.resumeAll (s : State) (body : List Byte) : Result :=
  if !body.isEmpty then s.refusal .badArg
  else if !s.hls.halted || s.hls.chord || s.hls.radio then s.refusal .badState
  else s.resumeLayout.accepted

/-- RESUME_ALL (R163). -/
def execResumeAll (p : Port) (tag : Byte) (body : List Byte) (s : State) : Host.Outcome State Fault Refusal :=
  .next (s.serve p { code := 0x39, levelZero := true, haltPayload := true } tag fun s => s.resumeAll body)

/-! ### LAYOUT_RESET (R164) -/

/-- The state of section `x` at layout reset: HELD, CLEARING and BLOCKED become FREE or PARKED by the stock (R97). -/
def State.clearedState (s : State) (x : Sec) : SecState :=
  match (s.sec x).dyn with
  | .free => .free
  | .held _ => s.restState x
  | .clearing _ => s.restState x
  | .parked => .parked
  | .barred => .barred
  | .blocked => s.restState x

/-- A section at layout reset: its state cleared, its queue emptied, its stock kept (R97). -/
def State.clearedSection (s : State) (x : Sec) : Section := ⟨s.clearedState x, (s.sec x).stock, []⟩

/-- The Interlock's layout reset (R97). -/
def State.resetInterlock (s : State) : State :=
  { s with sil := ⟨Tab.make 48 s.clearedSection, Tab.all 8 ⟨none, []⟩, Tab.all 12 Road.blank⟩ }

/-- The Convoy Table's and the Tracker's layout reset: every ACTIVE truck retires, every record is blank (R70,
R114). -/
def State.resetConvoys (s : State) : State :=
  let s := s.forEach allTrucks State.retire
  { s with cvt := { s.cvt with convoys := Tab.all 12 Convoy.blank }, tracks := Tab.all 12 Track.blank }

/-- The Dispatcher's layout reset (R145). -/
def State.resetRadio (s : State) : State :=
  (s.modRds fun r => { r with auxQueues := PerPort.all [], broadcasts := 3, burst := 0, rest := 0 }).recomputePeriod

/-- The Halt Supervisor at layout reset: with neither CHORD nor RADIO present, REQUEST is absent and the part RUNNING;
else both are kept (R164). -/
def HaltSupervisor.afterLayoutReset (h : HaltSupervisor) : HaltSupervisor :=
  if h.chord || h.radio then h else { h with request := false, halted := false }

/-- A port whose last convoy is cleared (R155). -/
def PortState.forgetConvoy (q : PortState) : PortState := { q with lastConvoy := none }

/-- The layout reset (R164). -/
def State.resetLayout (s : State) : State :=
  let s := s.resetConvoys.resetInterlock.resetRadio
  let s := { s with ports := s.ports.map PortState.forgetConvoy }
  (s.modHls HaltSupervisor.afterLayoutReset).raise (Notice.plain .layoutReset) .allPorts

/-- LAYOUT_RESET. -/
def State.layoutReset (s : State) (body : List Byte) : Result :=
  if body.isEmpty then s.resetLayout.accepted else s.refusal .badArg

/-- LAYOUT_RESET (R164). -/
def execLayoutReset (p : Port) (tag : Byte) (body : List Byte) (s : State) : Host.Outcome State Fault Refusal :=
  .next (s.serve p { code := 0x3A, levelZero := true, haltPayload := true } tag fun s => s.layoutReset body)

end Sys2Proof.Machine
end

