-- ==== Sys2Proof/Machine/Lines.lean ====
section
/-!
DEFINITION. What the detector lines and the timers bring: a change of logical level (R35 to R38), the expiry of a
check timer (R34 to R37), of a clearance timer (R88), of a settle timer (R84), the two points of a gap timer (R111),
and the ramp tick (R116). Each timer's event takes place at the timer's own time (notes/assumptions/10.md).
-/

namespace Sys2Proof.Machine

open Sys2Proof

/-- The line of input `d` goes to a level; once the load has ended, a change of the logical level is an event of the
input's conditioning (R34). -/
def State.lineChange (s : State) (d : Inp) (high : Bool) : State :=
  let before := s.logical d
  let s := s.modInput d fun i => { i with high := high }
  if !s.running || s.logical d == before then s
  else if s.logical d then s.wentActive d
  else s.wentInactive d

/-- CHANGE_OF_LOGICAL_LEVEL (R36). -/
def execChangeOfLogicalLevel (d : Inp) (high : Bool) (s : State) : Host.Outcome State Fault Refusal :=
  .next (s.event fun s => s.lineChange d high)

/-- CHECK_TIMER_EXPIRY (R36). -/
def execCheckTimerExpiry (d : Inp) (s : State) : Host.Outcome State Fault Refusal :=
  .next (s.atExpiry (s.checkLeft d) fun s => s.checkExpiry d)

/-- The clearance timer of section `x` expires: FREE or PARKED, and a grant scan (R88). -/
def State.clearanceOver (s : State) (x : Sec) : State := (s.toRest x).scanFor x

/-- CLEARANCE_TIMER_EXPIRY (R88). -/
def execClearanceTimerExpiry (x : Sec) (s : State) : Host.Outcome State Fault Refusal :=
  .next (s.atExpiry (s.clearanceLeft x) fun s => s.clearanceOver x)

/-- The settle timer of convoy `c` expires (R84). -/
def State.settled (s : State) (c : Conv) : State :=
  match (s.road c).watch with
  | .settling m _ => s.watchEffective c m
  | .idle => s
  | .awaiting _ => s
  | .effective _ => s

/-- SETTLE_TIMER_EXPIRY (R84). -/
def execSettleTimerExpiry (c : Conv) (s : State) : Host.Outcome State Fault Refusal :=
  .next (s.atExpiry (s.settleLeft c) fun s => s.settled c)

/-- `f` with the record of convoy `c` at boundary `j`. -/
def State.withRecord (s : State) (c : Conv) (j : Nat) (f : State → Crossing → State) : State :=
  match (s.track c).record? j with
  | some r => f s r
  | none => s

/-- GAP_TIMER_TLAG (R111). -/
def execGapTimerTlag (c : Conv) (j : Nat) (s : State) : Host.Outcome State Fault Refusal :=
  .next (s.atExpiry (s.lagLeft c j) fun s => s.withRecord c j fun s r => s.gapLag c r)

/-- GAP_TIMER_TLOST (R111). -/
def execGapTimerTlost (c : Conv) (j : Nat) (s : State) : Host.Outcome State Fault Refusal :=
  .next (s.atExpiry (s.lostLeft c j) fun s => s.withRecord c j fun s r => s.gapLost c r)

/-- The time between two ramp ticks in ms (R116). -/
def tickMs : Nat := 50

/-- Every ACTIVE truck's C moves toward its S, and the next tick is 50 ms away (R116). -/
def State.tick (s : State) : State :=
  let s := s.forEach s.activeTrucks State.rampTruck
  { s with hwg := { s.hwg with tickInMs := tickMs } }

/-- RAMP_TICK (R116). -/
def execRampTick (s : State) : Host.Outcome State Fault Refusal := .next (s.atExpiry s.tickLeft State.tick)

end Sys2Proof.Machine
end

