-- ==== Sys2Proof/Machine/Radio.lean ====
section
/-!
DEFINITION. The Radio Dispatcher's slot (Chapter 8): modem readiness (R131), the class order (R135) with the choice
inside each class, the port and the burst rule of class AUX (R142, R143), the send and its effects (R136 to R138), and
the broadcast (R137).
-/

namespace Sys2Proof.Machine

open Sys2Proof

/-! ### Choices within the classes (Table 8.2) -/

/-- The element of least value; of equal ones the first. -/
def leastBy {α : Type} (f : α → Nat) : List α → Option α
  | [] => none
  | x :: l =>
    match leastBy f l with
    | none => some x
    | some y => if f x ≤ f y then some x else some y

/-- The trucks with a STOP mark. -/
def State.stopOwed (s : State) : List Addr := allTrucks.filter fun a => (s.radio a).stopMark.isSome

/-- The ACTIVE trucks with a BRANCH mark. -/
def State.branchOwed (s : State) : List Addr := s.activeTrucks.filter fun a => (s.radio a).branchMark.isSome

/-- Class STOP: the truck with the oldest STOP mark; of one event's marks that of the lowest address (R134). -/
def State.chooseStop (s : State) : Option Addr := leastBy (fun a => (s.radio a).stopMark.getD 0) s.stopOwed

/-- Class BRANCH: the ACTIVE truck with the oldest BRANCH mark. -/
def State.chooseBranch (s : State) : Option Addr := leastBy (fun a => (s.radio a).branchMark.getD 0) s.branchOwed

/-- The ACTIVE trucks that have a refresh deadline. -/
def State.withDeadline (s : State) : List Addr := s.activeTrucks.filter fun a => (s.radio a).deadline.isSome

/-- Class EARLY: the ACTIVE truck with the earliest deadline; equal deadlines to the lower address. -/
def State.chooseEarly (s : State) : Option Addr := leastBy (fun a => (s.radio a).deadline.getD 0) s.withDeadline

/-- A deadline at or before the slot start. -/
def State.isDue (s : State) (a : Addr) : Bool :=
  match (s.radio a).deadline with
  | some d => decide (d ≤ s.now)
  | none => false

/-- Class DUE: the earliest deadline at or before the slot start; equal deadlines to the lower address. -/
def State.chooseDue (s : State) : Option Addr :=
  leastBy (fun a => (s.radio a).deadline.getD 0) (s.activeTrucks.filter s.isDue)

/-- The RAMP condition: C differs from the last-sent speed of an ACTIVE truck (R134). -/
def State.rampOwed (s : State) (a : Addr) : Bool := s.isActive a && (s.speed a).cmd != (s.radio a).lastSent

/-- Class RAMP: the first such truck in ascending address order after the pointer, wrapping from 32 to 1. -/
def State.chooseRamp (s : State) : Option Addr :=
  ((allTrucks.drop (s.rds.rampPointer.1 + 1)) ++ (allTrucks.take (s.rds.rampPointer.1 + 1))).find? s.rampOwed

/-- The ports in the cyclic order after a port, that port last. -/
def portsAfter : Port → List Port
  | .a => [.b, .c, .d, .a]
  | .b => [.c, .d, .a, .b]
  | .c => [.d, .a, .b, .c]
  | .d => [.a, .b, .c, .d]

/-- Class AUX: the first port after the pointer whose queue is not empty (R142), while the rest count is 0 (R143). -/
def State.chooseAux (s : State) : Option Port :=
  if 0 < s.rds.rest then none else (portsAfter s.rds.auxPointer).find? fun p => !(s.auxQueue p).isEmpty

/-! ### The class order (R135) -/

/-- What a slot sends. -/
inductive Choice where
  | broadcast
  | stop (a : Addr)
  | branch (a : Addr)
  | due (a : Addr)
  | ramp (a : Addr)
  | aux (p : Port)
  | early (a : Addr)
  | idle
  deriving DecidableEq, Repr

/-- The first choice there is. -/
def firstChoice : List (Option Choice) → Choice
  | [] => .idle
  | some c :: _ => c
  | none :: l => firstChoice l

/-- The frame of a slot with the modem ready: the first class of Table 8.2 with work (R135). -/
def State.chooseFrame (s : State) : Choice :=
  firstChoice
    [if 0 < s.rds.broadcasts then some .broadcast else none, s.chooseStop.map .stop, s.chooseBranch.map .branch,
      s.chooseDue.map .due, s.chooseRamp.map .ramp, s.chooseAux.map .aux, s.chooseEarly.map .early]

/-! ### Sending (R136 to R138) -/

/-- The speed a frame to truck `a` carries (R132). -/
def State.sentSpeed (s : State) (a : Addr) : Nat := if s.isActive a then (s.speed a).cmd else 0

/-- The frame to truck `a` is on the line, its marks are removed, and its last-sent speed and its deadline are set
(R136 steps 1 to 3). -/
def State.putFrame (s : State) (a : Addr) (horn coupler : Bool) : State :=
  let frame := s.truckFrame a horn coupler
  let active := s.isActive a
  let deadline := s.now + s.rds.period
  let speed := s.sentSpeed a
  (s.modRadio a fun r =>
    { r with
      stopMark := none, branchMark := none, lastSent := speed
      deadline := if active then some deadline else r.deadline }).modRds fun r => { r with frame := some frame }

/-- A reported frame makes a RETIRING truck FREE (R50, R133). -/
def State.freeTruck (s : State) (a : Addr) : State := (s.setUsage a .free).modRadio a fun _ => RadioTruck.blank

/-- The report of a frame to truck `a` (R136 step 6): a RETIRING truck becomes FREE, and a fork watch of a convoy that
it leads goes on (R50, R84). -/
def State.frameReport (s : State) (a : Addr) : State :=
  match s.usage a with
  | .retiring _ => s.freeTruck a
  | .active c => if s.leader? c = some a then s.watchFrame c else s
  | .free => s

/-- The lateness that a notice carries (R138). -/
def latenessOf (now deadline : Nat) : Nat := min (now - deadline) 65535

/-- The frame to a truck of convoy `c` that was due at `deadline` is late (R138). -/
def State.lateness (s : State) (a : Addr) (usage : TruckUse) (deadline : Option Nat) : State :=
  match usage, deadline with
  | .active c, some d =>
    if d + 10 < s.now then
      s.raise ⟨.refreshLate, some c, none, some a, none, latenessOf s.now d⟩ (.ownerOf c)
    else s
  | _, _ => s

/-- The send of a frame to truck `a` (R136, R138). -/
def State.sendFrame (s : State) (a : Addr) (horn coupler : Bool) : State :=
  let usage := s.usage a
  let deadline := (s.radio a).deadline
  ((s.putFrame a horn coupler).frameReport a).lateness a usage deadline

/-- The send of a broadcast frame (R137). -/
def State.sendBroadcast (s : State) : State :=
  s.modRds fun r => { r with broadcasts := r.broadcasts - 1, frame := some broadcastFrame }

/-- A light after a change field (R142 step 1). -/
def LightChange.apply (c : LightChange) (now : Bool) : Bool :=
  match c with
  | .leave => now
  | .on => true
  | .off => false

/-- The front entry of port `p` is served (R142): the truck's lights, the frame with horn and coupler release, the
queue and the pointer. -/
def State.serveAux (s : State) (p : Port) : State :=
  match s.auxQueue p with
  | [] => s
  | e :: rest =>
    let s := s.modRadio e.addr fun r =>
      { r with headLights := e.head.apply r.headLights, hazard := e.hazard.apply r.hazard }
    let s := s.modRds fun r => { r with auxQueues := r.auxQueues.put p rest, auxPointer := p }
    s.sendFrame e.addr e.horn (e.coupler && (s.speed e.addr).cmd == 0)

/-- The effects of a slot's choice. -/
def State.sendChoice (s : State) : Choice → State
  | .broadcast => s.sendBroadcast
  | .stop a => s.sendFrame a false false
  | .branch a => s.sendFrame a false false
  | .due a => s.sendFrame a false false
  | .ramp a => (s.modRds fun r => { r with rampPointer := a }).sendFrame a false false
  | .aux p => s.serveAux p
  | .early a => s.sendFrame a false false
  | .idle => s

/-! ### The slot (R130, R131, R143) -/

/-- The slot carries an AUX frame. -/
def Choice.isAux : Choice → Bool
  | .broadcast => false
  | .stop _ => false
  | .branch _ => false
  | .due _ => false
  | .ramp _ => false
  | .aux _ => true
  | .early _ => false
  | .idle => false

/-- Burst and rest count after a slot's choice (R143). -/
def Dispatcher.countAux (r : Dispatcher) (aux : Bool) : Dispatcher :=
  if 0 < r.rest then { r with rest := r.rest - 1 }
  else if aux then (if r.burst + 1 = 4 then { r with burst := 0, rest := 2 } else { r with burst := r.burst + 1 })
  else { r with burst := 0 }

/-- The not-ready count at which the radio is lost (R131). -/
def lostSlots : Nat := 20

/-- The slot's modem reading with the modem not ready (R131). -/
def State.modemDown (s : State) : State :=
  let count := min (s.rds.notReady + 1) lostSlots
  let lost := s.rds.notReady < lostSlots ∧ count = lostSlots
  let s := s.modRds fun r => { r with notReady := count, radioLost := r.radioLost || decide lost }
  if lost then s.causePresent .radio else s

/-- The slot's modem reading with the modem ready (R131). -/
def State.modemUp (s : State) : State :=
  let was := s.rds.radioLost
  let s := s.modRds fun r => { r with notReady := 0, radioLost := false }
  if was then s.causeAbsent .radio else s

/-- The time between two slot starts in ms (R130). -/
def slotMs : Nat := 10

/-- A slot starts: the line is empty until a frame is chosen, and the next slot is 10 ms away. -/
def State.openSlot (s : State) : State := s.modRds fun r => { r with frame := none, slotInMs := slotMs }

/-- A slot with the modem not ready: no frame (R130, R131, R143). -/
def State.slotDown (s : State) : State := (s.openSlot.modemDown).modRds fun r => r.countAux false

/-- A slot with the modem ready (R130, R131, R135, R143). -/
def State.slotUp (s : State) : State :=
  let s := s.openSlot.modemUp
  let choice := s.chooseFrame
  (s.sendChoice choice).modRds fun r => r.countAux choice.isAux

/-- SLOT_START (R130). -/
def execSlotStart (ready : Bool) (s : State) : Host.Outcome State Fault Refusal :=
  .next (s.atExpiry s.slotLeft fun s => if ready then s.slotUp else s.slotDown)

/-- The next slot start, modem not ready, is the one that loses the radio: the not-ready count stands at 19 (R131). -/
def State.losesRadio (s : State) : Bool := s.rds.notReady + 1 == lostSlots

/-- RADIO_LOST (R131): the slot start that brings the not-ready count to 20 (notes/assumptions/12.md). -/
def execRadioLost (s : State) : Host.Outcome State Fault Refusal :=
  .next (if s.losesRadio then s.atExpiry s.slotLeft State.slotDown else s)

end Sys2Proof.Machine
end

