-- ==== Sys2Proof/Machine/Transmit.lean ====
section
/-!
DEFINITION. The commands of a port's transmitter (R153, R154, R159): the expiry of the flush timer, the start of a notice
batch, the start of a reply, and the end of a message. What a start does stands in Machine/Sending.lean.
-/

namespace Sys2Proof.Machine

open Sys2Proof

/-- FLUSH_TIMER_EXPIRY (R159): the expiry is remembered until the batch begins. -/
def execFlushTimerExpiry (p : Port) (s : State) : Host.Outcome State Fault Refusal :=
  .next (s.atExpiry (s.flushLeft p) fun s => s.modPort p fun q => { q with flush := .expired })

/-- No message of the batch in progress is left to follow the present one. -/
def Transmitter.isLast : Transmitter → Bool
  | .idle => true
  | .sending _ _ _ rest => rest.isEmpty

/-- The port with its transmitter IDLE. -/
def PortState.quiet (q : PortState) : PortState := { q with tx := .idle }

/-- BATCH_START (R159): where the transmitter, IDLE or at the end of its present message, finds no reply and the batch
start condition, it begins the batch. The begin is the look that ends the event (R154, notes/assumptions/24.md). -/
def execBatchStart (p : Port) (s : State) : Host.Outcome State Fault Refusal :=
  .next (if (s.port p).tx.isLast && (s.port p).quiet.canBatch then s.event fun s => s.modPort p PortState.quiet else s)

/-- REPLY_SEND_START (R154): where the transmitter, IDLE or at the end of its present message, finds a reply waiting, it
begins the oldest. The begin is the look that ends the event (notes/assumptions/24.md). -/
def execReplySendStart (p : Port) (s : State) : Host.Outcome State Fault Refusal :=
  .next (if (s.port p).tx.isLast && (s.port p).quiet.canReply then s.event fun s => s.modPort p PortState.quiet else s)

/-- The message in progress has ended: the next message of its batch follows back to back, or the transmitter is IDLE
(R154). -/
def PortState.endMessage (q : PortState) : PortState :=
  match q.tx with
  | .idle => q
  | .sending _ _ _ [] => { q with tx := .idle }
  | .sending _ _ _ (ns :: rest) =>
    { q with batchSeq := q.batchSeq + 1, tx := .start (batchMessage q.batchSeq ns (!rest.isEmpty)) true rest }

/-- MESSAGE_END (R154): the last byte of the message in progress has been sent. Sent as a command it ends the message at
once, whatever time is left (notes/assumptions/8.md). -/
def execMessageEnd (p : Port) (s : State) : Host.Outcome State Fault Refusal :=
  .next (if (s.port p).tx.isIdle then s else s.event fun s => s.modPort p PortState.endMessage)

end Sys2Proof.Machine
end

