-- ==== Sys2Proof/Machine/Dispatch.lean ====
section
/-!
DEFINITION. The meaning of every command: one arm for each row of the table, in its order, each a direct call.
-/

namespace Sys2Proof.Machine

open Sys2Proof

/-- What a command does to everything but the queue. -/
def exec (i : Instr) (s : State) : Host.Outcome State Fault Refusal :=
  match i with
  | .powerReset => Sys2Proof.Machine.execPowerReset s
  | .brownOut mv => Sys2Proof.Machine.execBrownOut mv s
  | .powerResetRelease mv => Sys2Proof.Machine.execPowerResetRelease mv s
  | .endOfTheLoad readable => Sys2Proof.Machine.execEndOfTheLoad readable s
  | .attach p => Sys2Proof.Machine.execAttach p s
  | .detach p => Sys2Proof.Machine.execDetach p s
  | .interByteGap p b => Sys2Proof.Machine.execInterByteGap p b s
  | .messageDiscarded p => Sys2Proof.Machine.execMessageDiscarded p s
  | .unknownKind p kind tag body => Sys2Proof.Machine.execUnknownKind p kind tag body s
  | .readMap p tag body => Sys2Proof.Machine.execReadMap p tag body s
  | .editSection p tag body => Sys2Proof.Machine.execEditSection p tag body s
  | .editZone p tag body => Sys2Proof.Machine.execEditZone p tag body s
  | .editDetector p tag body => Sys2Proof.Machine.execEditDetector p tag body s
  | .editGroup p tag body => Sys2Proof.Machine.execEditGroup p tag body s
  | .editSettings p tag body => Sys2Proof.Machine.execEditSettings p tag body s
  | .commitMap p tag body => Sys2Proof.Machine.execCommitMap p tag body s
  | .commitEnd readBack => Sys2Proof.Machine.execCommitEnd readBack s
  | .queryDetectors p tag body => Sys2Proof.Machine.execQueryDetectors p tag body s
  | .claim p tag body => Sys2Proof.Machine.execClaim p tag body s
  | .releaseClaim p tag body => Sys2Proof.Machine.execReleaseClaim p tag body s
  | .form p tag body => Sys2Proof.Machine.execForm p tag body s
  | .reform p tag body => Sys2Proof.Machine.execReform p tag body s
  | .disband p tag body => Sys2Proof.Machine.execDisband p tag body s
  | .setParams p tag body => Sys2Proof.Machine.execSetParams p tag body s
  | .hold p tag body => Sys2Proof.Machine.execHold p tag body s
  | .unhold p tag body => Sys2Proof.Machine.execUnhold p tag body s
  | .clearFault p tag body => Sys2Proof.Machine.execClearFault p tag body s
  | .queryConvoy p tag body => Sys2Proof.Machine.execQueryConvoy p tag body s
  | .setRoute p tag body => Sys2Proof.Machine.execSetRoute p tag body s
  | .start p tag body => Sys2Proof.Machine.execStart p tag body s
  | .retry p tag body => Sys2Proof.Machine.execRetry p tag body s
  | .bar p tag body => Sys2Proof.Machine.execBar p tag body s
  | .unbar p tag body => Sys2Proof.Machine.execUnbar p tag body s
  | .clearSection p tag body => Sys2Proof.Machine.execClearSection p tag body s
  | .setStock p tag body => Sys2Proof.Machine.execSetStock p tag body s
  | .querySection p tag body => Sys2Proof.Machine.execQuerySection p tag body s
  | .aux p tag body => Sys2Proof.Machine.execAux p tag body s
  | .setNotify p tag body => Sys2Proof.Machine.execSetNotify p tag body s
  | .allStop p tag body => Sys2Proof.Machine.execAllStop p tag body s
  | .resumeAll p tag body => Sys2Proof.Machine.execResumeAll p tag body s
  | .layoutReset p tag body => Sys2Proof.Machine.execLayoutReset p tag body s
  | .changeOfLogicalLevel d high => Sys2Proof.Machine.execChangeOfLogicalLevel d high s
  | .checkTimerExpiry d => Sys2Proof.Machine.execCheckTimerExpiry d s
  | .clearanceTimerExpiry x => Sys2Proof.Machine.execClearanceTimerExpiry x s
  | .settleTimerExpiry c => Sys2Proof.Machine.execSettleTimerExpiry c s
  | .gapTimerTlag c j => Sys2Proof.Machine.execGapTimerTlag c j s
  | .gapTimerTlost c j => Sys2Proof.Machine.execGapTimerTlost c j s
  | .rampTick => Sys2Proof.Machine.execRampTick s
  | .slotStart ready => Sys2Proof.Machine.execSlotStart ready s
  | .radioLost => Sys2Proof.Machine.execRadioLost s
  | .supplyLow mv => Sys2Proof.Machine.execSupplyLow mv s
  | .supplyOk mv => Sys2Proof.Machine.execSupplyOk mv s
  | .flushTimerExpiry p => Sys2Proof.Machine.execFlushTimerExpiry p s
  | .batchStart p => Sys2Proof.Machine.execBatchStart p s
  | .replySendStart p => Sys2Proof.Machine.execReplySendStart p s
  | .messageEnd p => Sys2Proof.Machine.execMessageEnd p s

end Sys2Proof.Machine
end

