-- ==== Sys2Proof/Machine/Step.lean ====
section
/-!
DEFINITION. One step: the command at the front of the queue is taken and run with the queue's rest. On an empty queue
the part goes on by itself: one of the events whose time has come takes place, or, where none has, one millisecond
passes (notes/assumptions/11.md).
-/

namespace Sys2Proof.Machine

open Sys2Proof

/-- One of several due events, by the next free choice (notes/assumptions/4.md). -/
def State.pickDue (s : State) (first : Instr) (rest : List Instr) : Instr :=
  ((first :: rest)[Config.choice s.fresh % (rest.length + 1)]?).getD first

/-- What the part does when no command waits. -/
def State.runOn (s : State) : Host.Outcome State Fault Refusal :=
  match s.due with
  | [] => .next (s.advance 1)
  | [i] => exec i s
  | i :: j :: rest => exec (s.pickDue i (j :: rest)) { s with fresh := s.fresh + 1 }

/-- One step of the part. -/
def step (s : State) : Host.Outcome State Fault Refusal :=
  match s.pending with
  | [] => s.runOn
  | i :: rest => exec i { s with pending := rest }

/-- `s` with the command that a word spells put at the front of its queue. The table gives no row any bits, so a word
spells none and `s` is unchanged (notes/assumptions/2.md). -/
def State.withFetchWord (s : State) (nbits w : Nat) : State :=
  match decodeTableWord nbits w with
  | some i => { s with pending := i :: s.pending }
  | none => s

end Sys2Proof.Machine
end

