-- ==== Sys2Proof/Safety.lean ====
section
/-!
DEFINITION. The words the statements are written in: what a command leaves unchanged (block by block, Table 0.1), what
it means that a port serves a request and what its reply does to the ports, the values of a power reset, and the
properties that every step keeps.
-/

namespace Sys2Proof.Machine

open Sys2Proof

/-! ### Frames -/

/-- The blocks of Table 0.1, with the lines outside them, the queue of commands and the model's clock. -/
inductive Block where
  | mapUnit
  | frontEnd
  | convoyTable
  | interlock
  | tracker
  | governor
  | dispatcher
  | consolePorts
  | haltSupervisor
  | pins
  | queue
  | clock
  deriving DecidableEq, Repr

/-- Two states agree on a block. -/
def State.sameIn (s t : State) : Block → Prop
  | .mapUnit => t.mu = s.mu
  | .frontEnd => t.dfe = s.dfe
  | .convoyTable => t.cvt = s.cvt
  | .interlock => t.sil = s.sil
  | .tracker => t.tracks = s.tracks
  | .governor => t.hwg = s.hwg
  | .dispatcher => t.rds = s.rds
  | .consolePorts => t.ports = s.ports
  | .haltSupervisor => t.hls = s.hls
  | .pins => t.pins = s.pins
  | .queue => t.pending = s.pending
  | .clock => t.now = s.now

/-- Nothing changes but in the blocks listed. -/
def KeepsAllBut (s t : State) (changed : List Block) : Prop := ∀ b, b ∉ changed → s.sameIn t b

/-- `r` is `q` after an event that only brought it notices: its notice queue with the flush timer may have changed, and an
idle transmitter has looked at its queues (R154, R158). That all notices of one event have joined before the look is the
model's reading (notes/assumptions/24.md). -/
def Noticed (q r : PortState) : Prop := ∃ ns fl, r = PortState.look { q with notices := ns, flush := fl }

/-- No port changes by the event but by notices. -/
def KeepsPorts (s t : State) : Prop := ∀ q, Noticed (s.port q) (t.port q)

/-- No truck but those of a list changes its speeds or its radio record. -/
def KeepsOtherTrucks (s t : State) (changed : List Addr) : Prop :=
  ∀ a, a ∉ changed → t.speed a = s.speed a ∧ t.radio a = s.radio a

/-- No convoy but `c` changes its record, its road or its tracking. -/
def KeepsOtherConvoys (s t : State) (c : Conv) : Prop :=
  ∀ d, d ≠ c → t.convoy d = s.convoy d ∧ t.road d = s.road d ∧ t.track d = s.track d

/-! ### Requests and replies -/

/-- Port `p` processes a request now: no notice is left over, it is attached, its reply queue has a place, and the
load has ended. -/
abbrev Serves (s : State) (p : Port) : Prop :=
  s.raised = [] ∧ (s.port p).attached = true ∧ (s.port p).placesTaken < 4 ∧ s.running = true

/-- A port after a request: receiver in HUNT, the reply at the back of its queue, the last convoy as given. -/
def PortState.after (q : PortState) (last : Option Conv) (kind tag : Byte) (code : ReplyCode) (payload : List Byte) :
    PortState :=
  { q with receiver := .hunt, lastConvoy := last, replies := q.replies ++ [⟨kind, tag, byte code.code :: payload⟩] }

/-- `s` after an event that does nothing but answer a request of port `p`; the transmitters look at their queues (R154). -/
def State.replied (s : State) (p : Port) (last : Option Conv) (kind tag : Byte) (code : ReplyCode)
    (payload : List Byte) : State :=
  State.looked
    { s with eventNo := s.eventNo + 1, ports := s.ports.put p ((s.port p).after last kind tag code payload) }

/-- `t` differs from `s` in the console ports only by the answer to a request of port `p`, and by notices. -/
def Answers (s t : State) (p : Port) (last : Option Conv) (kind tag : Byte) (code : ReplyCode) (payload : List Byte) :
    Prop :=
  ∀ q, Noticed (if q = p then (s.port p).after last kind tag code payload else s.port q) (t.port q)

/-- The port's last convoy after a request whose convoy byte is `b` and names `c` (R150). -/
def State.lastAfter (s : State) (p : Port) (b : Byte) (c : Conv) : Option Conv :=
  if b = 0 then (s.port p).lastConvoy else some c

/-- Port `p` may command convoy `c`: it is the owner, or at level 0 (R150). -/
abbrev MayCommand (s : State) (p : Port) (c : Conv) : Prop := s.owns p c = true ∨ s.level p = 0

/-- Port `p` sends a request that names convoy `c` by the byte `b`, and may command it. -/
abbrev Commands (s : State) (p : Port) (b : Byte) (c : Conv) : Prop :=
  Serves s p ∧ s.named p b = some c ∧ MayCommand s p c

/-- A port as it stands after notice `n` for the audience `who` of state `s`, if port `q` is among it. -/
def State.told (s : State) (who : Audience) (n : Notice) (q : Port) (u : PortState) : PortState :=
  if q ∈ s.recipients who then u.notify n else u

/-- The short payload of an accepted convoy request: convoy number and status byte (R151). -/
def State.shortPayload (s : State) (c : Conv) : List Byte := [byte (convoyNumber c), (s.convoy c).status]

/-- No convoy waits for any of the resources of a list. -/
abbrev NobodyWaits (s : State) (rs : List Resource) : Prop := ∀ r ∈ rs, s.queue r = []

/-! ### Trucks and released road -/

/-- The Dispatcher's record of a truck after a hard stop at event `n`: a STOP mark, its first order kept (R134). -/
def RadioTruck.stopped (r : RadioTruck) (n : Nat) : RadioTruck := { r with stopMark := some (r.stopMark.getD n) }

/-- The Dispatcher's record of a truck that leaves its convoy at event `n` (R133). -/
def RadioTruck.retired (r : RadioTruck) (n : Nat) : RadioTruck :=
  { r with
    headLights := false, hazard := false, deadline := none, branchMark := none, stopMark := some (r.stopMark.getD n) }

/-- Truck `a` is hard-stopped by the event that leads from `s` to `t` (R117). -/
abbrev HardStopped (s t : State) (a : Addr) : Prop :=
  t.speed a = ⟨0, 0⟩ ∧ t.radio a = (s.radio a).stopped (s.eventNo + 1)

/-- A target is applied to leader `a` by the event that leads from `s` to `t` (R123). -/
abbrev Targeted (s t : State) (a : Addr) (target : Nat) : Prop :=
  if 0 < target then t.speed a = ⟨target, (s.speed a).cmd⟩ ∧ t.radio a = s.radio a
  else if 0 < (s.speed a).set ∨ 0 < (s.speed a).cmd then HardStopped s t a
  else t.speed a = s.speed a ∧ t.radio a = s.radio a

/-- Truck `a` leaves convoy `c` by the event that leads from `s` to `t` (R50, R133). -/
abbrev Retired (s t : State) (c : Conv) (a : Addr) : Prop :=
  t.usage a = .retiring c ∧ t.speed a = ⟨0, 0⟩ ∧ t.radio a = (s.radio a).retired (s.eventNo + 1)

/-- Truck `a` becomes ACTIVE in convoy `c` by the event that leads from `s` to `t` (R60, R115, R133). -/
abbrev Activated (s t : State) (c : Conv) (a : Addr) : Prop :=
  t.usage a = .active c ∧ t.speed a = ⟨0, 0⟩ ∧ t.radio a = ⟨0, false, false, false, some s.now, none, none⟩

/-- The follower units of convoy `c`, all DOWN. -/
def State.allDown (s : State) (c : Conv) : List RunState := List.replicate (unitCount (s.members c) - 1) .down

/-- Section `x`, HELD by `c`, is given back with one of the resources of a list. -/
abbrev GivenBack (s : State) (c : Conv) (rs : List Resource) (x : Sec) : Prop :=
  s.holds c x = true ∧ (.sec x ∈ rs ∨ ∃ g : Grp, .grp g ∈ rs ∧ x ∈ s.map.listed g)

/-- A wait queue after convoy `c`'s entry was withdrawn (R79). -/
def State.queueWithout (s : State) (c : Conv) (r : Resource) : List Entry :=
  if (s.road c).req = .queued r then (s.queue r).filter fun e => e.conv != c else s.queue r

/-- The convoys of a list wait one for the next from resource `r` on (R78): the first is the holder of `r`, and each
next one the holder of the resource its forerunner is QUEUED for. -/
def State.waitsAlong (s : State) (r : Resource) : List Conv → Prop
  | [] => True
  | d :: l => s.holder r = some d ∧ (l = [] ∨ ∃ y, (s.road d).req = .queued y ∧ s.waitsAlong y l)

/-- Entry `e` is the one that a grant scan of `r` grants to (R81): the part is not HALTED, and of the queue's entries,
from the front, it is the first to which `r` is grantable. -/
def State.firstEligible (s : State) (r : Resource) (e : Entry) : Prop :=
  s.hls.halted = false ∧ ∃ front back, s.queue r = front ++ e :: back ∧ s.eligible r e = true
    ∧ ∀ f ∈ front, s.eligible r f = false

/-- The resource is HELD by convoy `c`: for a group, with every section on its list (R81). -/
def State.heldWhole (s : State) (c : Conv) : Resource → Prop
  | .sec x => s.secHolder x = some c
  | .grp g => (s.grp g).holder = some c ∧ ∀ x ∈ s.map.listed g, s.secHolder x = some c

/-- What the request for road of convoy `c` leads to (R77 to R79, R81): `u` is the state in which it is made, `t` one after
the event. Where `c` wants none, its request state and the queues stay; a request whose chain of waits closes is REFUSED
and joins no queue; any other joins the queue of its resource, and stays there where the grant scan finds no eligible
entry; else the first eligible entry is granted the resource. -/
def Requested (u t : State) (c : Conv) : Prop :=
  (u.wanted c = none → (t.road c).req = (u.road c).req ∧ ∀ y, t.queue y = u.queue y)
  ∧ ∀ k x, u.wanted c = some (k, x) →
    let r := u.map.resourceOf x
    let v := u.join c k x r
    (u.chainCloses c chainLimit r = true → (t.road c).req = .refused ∧ ∀ y, t.queue y = u.queue y)
    ∧ (u.chainCloses c chainLimit r = false →
      ((∀ e, ¬ v.firstEligible r e) → (t.road c).req = .queued r
        ∧ ∀ y, t.queue y = if y = r then insertEntry ⟨c, x, k, u.entryLevel c⟩ (u.queue r) else u.queue y)
      ∧ ∀ e, v.firstEligible r e → t.heldWhole e.conv r)

/-- Every section HELD by convoy `c` in `t` was so in `s`: the event grants `c` nothing. -/
def GrantsNothing (s t : State) (c : Conv) : Prop := ∀ x, t.secHolder x = some c → s.secHolder x = some c

/-! ### Follower units -/

/-- The run state of follower unit `u` of convoy `c` after step 3 of the restart procedure, by the resulting convoy state
(R109): into ROLLING, or into WAITING or ARRIVING, where a unit that stands wholly at the head is DOWN. -/
def State.unitReset (s : State) (c : Conv) (st : ConvoyState) (u : Nat) : Option RunState :=
  (s.unitState? c u).map fun r =>
    if st = .rolling then
      match r with
      | .downPending => .run
      | .down => .startPending
      | .run => .run
      | .startPending => .startPending
    else if s.lastAtHead c u then .down
    else if r = .down then .startPending
    else r

/-- The set speed of a restart behind a unit that is DOWN: the approach cap of the head's zone, and the caps of the
section the truck stands in; 0 while HALTED (R108, R128). -/
def State.runInSpeed (s : State) (c : Conv) (u : Nat) : Nat :=
  if s.hls.halted then 0
  else
    match s.unitSec? c u with
    | some x => min (s.approachCap c) (s.vcap c x)
    | none => 0

/-- The follower units of convoy `c` are set from `s` to `t` by steps 3 and 4 of the restart procedure, for the resulting
convoy state `st` (R109): in WAITING or ARRIVING a START-PENDING unit whose unit ahead is DOWN, the leader's counting as
DOWN, starts at once, and is DOWN-PENDING where its set speed is above 0. -/
def UnitsRestarted (s t : State) (c : Conv) (st : ConvoyState) : Prop :=
  ∀ u, 1 ≤ u → u < unitCount (s.members c) →
    let starts := st ≠ .rolling ∧ s.unitReset c st u = some .startPending
      ∧ (u = 1 ∨ s.unitReset c st (u - 1) = some .down)
    (t.unitState? c u = if starts ∧ 0 < t.runInSpeed c u then some .downPending else s.unitReset c st u)
    ∧ ∀ a, s.unitTruck? c u = some a →
      t.speed a = if starts then ⟨t.runInSpeed c u, (s.speed a).cmd⟩ else s.speed a

/-- The blocks that road becoming available can reach: grants, requests, restarts, frames owed and notices. -/
def roadBlocks : List Block := [.convoyTable, .interlock, .tracker, .governor, .dispatcher, .consolePorts]

/-! ### Power reset -/

/-- The values that R48, R70, R96, R114, R115, R144, R155 and R160 give the blocks at power reset, with R20's for the
Map Unit's flag and the commit in flight. -/
def AtPowerReset (t : State) : Prop :=
  (t.mu.phase = .held ∧ t.mu.mapInvalid = false ∧ t.mu.commit = none)
  ∧ (∀ d, (t.input d).cond = .disabled ∧ (t.input d).timer = none)
  ∧ (∀ p, t.dfe.seen.nth p = []) ∧ t.dfe.chord = false
  ∧ (∀ a, t.usage a = .free)
  ∧ (∀ c, t.convoy c = ⟨none, .unformed, [], ⟨40, 8, 2, 4, 2, 15⟩, ⟨1000, 2000, 6000⟩, none, none⟩)
  ∧ (∀ x, t.secHolder x = none ∧ (t.sec x).stock = 0 ∧ (t.sec x).queue = [])
  ∧ (∀ g, t.grp g = ⟨none, []⟩) ∧ (∀ c, t.road c = ⟨[], .idle, .idle⟩)
  ∧ (∀ c, t.track c = ⟨0, 0, [], false, []⟩)
  ∧ (∀ a, t.speed a = ⟨0, 0⟩)
  ∧ (∀ a, t.radio a = ⟨0, false, false, false, none, none, none⟩)
  ∧ (∀ p, t.auxQueue p = [])
  ∧ (t.rds.broadcasts = 0 ∧ t.rds.notReady = 0 ∧ t.rds.radioLost = false ∧ t.rds.burst = 0 ∧ t.rds.rest = 0)
  ∧ (radioAddress t.rds.rampPointer = 32 ∧ t.rds.auxPointer = .d ∧ t.rds.frame = none)
  ∧ (∀ p, t.port p = ⟨(t.port p).present, 50, false, true, 2, none, .hunt, [], false, [], .stopped, .idle, 0⟩)
  ∧ t.hls = ⟨false, false, false, false, false⟩

/-! ### Inputs -/

/-- The conditioning state and check timer with which input `d` starts under a map, its line at a level (R35, R38, R39,
R48). -/
def LayoutMap.startState (m : LayoutMap) (d : Inp) (high : Bool) : InputState × Option Nat :=
  if (m.detectors.nth d).enabled = false then (.disabled, none)
  else if high = (m.detectors.nth d).activeHigh then (.idle, none)
  else if m.filterCode d = 0 then (.inactive, none)
  else (.idle, some 0)

/-- Tables of R35 to R38 and R40: the state and the timer of an input after its logical level has become active
(`active`) or inactive, with the filter off (`off`) or not. -/
def levelTable (c : InputState) (t : Option Nat) (active off : Bool) : InputState × Option Nat :=
  match c, active, off with
  | .disabled, _, _ => (.disabled, t)
  | .idle, true, _ => (.idle, none)
  | .idle, false, false => (.idle, some 0)
  | .idle, false, true => (.inactive, none)
  | .inactive, true, false => (.rising, some 0)
  | .inactive, true, true => (.active, none)
  | .inactive, false, _ => (.inactive, t)
  | .rising, true, _ => (.rising, t)
  | .rising, false, _ => (.inactive, none)
  | .active, true, _ => (.active, t)
  | .active, false, false => (.falling, some 0)
  | .active, false, true => (.inactive, none)
  | .falling, true, _ => (.active, none)
  | .falling, false, _ => (.falling, t)

/-- The state and the timer of an input after its check timer has expired (R35 to R37). -/
def expiryTable (c : InputState) (t : Option Nat) : InputState × Option Nat :=
  match c with
  | .disabled => (.disabled, t)
  | .idle => (.inactive, none)
  | .inactive => (.inactive, t)
  | .rising => (.active, none)
  | .active => (.active, t)
  | .falling => (.inactive, none)

/-! ### What every step keeps -/

/-- No notice is left raised between events. -/
def Quiet (s : State) : Prop := s.raised = []

/-- The profiles and the settings of the working map lie in their ranges: conditions 11 and 12 of Table 1.5. -/
def MapInRange (s : State) : Prop :=
  (∀ p : ProfileNo, 4 ≤ (s.map.profiles.nth p).speedCap ∧ (s.map.profiles.nth p).speedCap ≤ 63
    ∧ 1 ≤ (s.map.profiles.nth p).approachCap ∧ (s.map.profiles.nth p).approachCap ≤ 31
    ∧ (s.map.profiles.nth p).approachCap ≤ (s.map.profiles.nth p).speedCap)
  ∧ (∀ p : Port, s.level p ≤ 3) ∧ s.map.settings.chord ≤ 3
  ∧ (100 ≤ s.map.settings.refresh ∧ s.map.settings.refresh ≤ 1000 ∧ s.map.settings.refresh % 10 = 0)
  ∧ s.map.settings.threshold ≤ 15

/-- The queues of every port lie within their room: 4 replies with the reservation, 16 notices, 8 aux entries (R141,
R153, R158). -/
def WithinRoom (s : State) : Prop :=
  ∀ p, (s.port p).placesTaken ≤ 4 ∧ (s.port p).notices.length ≤ 16 ∧ (s.auxQueue p).length ≤ 8

/-- No transmitter is idle while a reply waits or a batch may start (R154). -/
def NothingWaitsIdle (s : State) : Prop := ∀ p, (s.port p).canReply = false ∧ (s.port p).canBatch = false

/-- The membership law (R49, R53): a member of a convoy is ACTIVE in it, and an UNFORMED convoy has no members. -/
def MembersActive (s : State) : Prop :=
  (∀ c, ∀ a ∈ truckAddrs (s.members c), s.usage a = .active c) ∧ (∀ c, s.formed c = false → s.members c = [])

/-- The chord state follows the chord (R46), and the CHORD cause follows the chord state (R160); no chord is seen before
the load ends (R48). -/
def ChordAgrees (s : State) : Prop :=
  s.dfe.chord = s.chordComplete ∧ s.hls.chord = s.dfe.chord ∧ (s.running = false → s.dfe.chord = false)

/-- A truck that is FREE or RETIRING stands (R115). -/
def OthersStand (s : State) : Prop := ∀ a, s.isActive a = false → s.speed a = ⟨0, 0⟩

/-- The queue law (R77, R79): a convoy with an entry in a wait queue is QUEUED for that resource, so it stands in one
queue at most; and an UNFORMED convoy has no route, no request and no watch. -/
def QueuesAgree (s : State) : Prop :=
  (∀ r, ∀ e ∈ s.queue r, (s.road e.conv).req = .queued r) ∧ (∀ c, s.formed c = false → s.road c = ⟨[], .idle, .idle⟩)

/-- While the part is HALTED every truck stands (R121), with the laws this rests on. -/
def HaltedStand (s : State) : Prop :=
  MembersActive s ∧ OthersStand s ∧ (s.hls.halted = true → ∀ a, s.speed a = ⟨0, 0⟩)

end Sys2Proof.Machine
end

