-- ==== Sys2Proof/Certificates/Slice0/Obligations.lean ====
section
/-!
DEFINITION. The statements for the provers: what the step does, what each command's own effect is and what it leaves
unchanged, and what every step keeps.
-/

open Sys2Proof Sys2Proof.Machine

/-! ### The step, reset, load -/

/-- A step takes the command at the front of the queue and runs it with the queue's rest. -/
def Obligations.StepRunsTheFrontCommand : Prop :=
  ∀ (s : State) (i : Instr) (rest : List Instr), s.pending = i :: rest → step s = exec i { s with pending := rest }

/-- On an empty queue the part goes on by itself: one of the events whose time has come, or one millisecond; the
model's choice (notes/assumptions/11.md). Time that passes moves the timers and nothing else; a gap timer counts only
while the truck it waits for has speed (R111), no slot and no tick comes nearer before the end of the load, and no watch
of a port runs while a power reset is held (R20, R21). -/
def Obligations.StepOnAnEmptyQueueLetsThePartGoOn : Prop :=
  ∀ s : State,
    (s.pending = [] → (s.due = [] → step s = .next (s.advance 1)) ∧ (∀ i, s.due = [i] → step s = exec i s)
      ∧ ∀ i j rest, s.due = i :: j :: rest → ∃ k ∈ s.due, step s = exec k { s with fresh := s.fresh + 1 })
    ∧ ∀ ms, 0 < ms →
      let t := s.advance ms
      t.now = s.now + ms ∧ t.eventNo = s.eventNo ∧ t.fresh = s.fresh ∧ t.raised = s.raised
        ∧ t.mu = { s.mu with
            loadLeftMs := s.mu.loadLeftMs - ms
            commit := s.mu.commit.map fun k => { k with leftMs := k.leftMs - ms } }
        ∧ t.dfe.seen = s.dfe.seen ∧ t.dfe.chord = s.dfe.chord
        ∧ (∀ d, t.input d = { s.input d with timer := (s.input d).timer.map (· + ms) })
        ∧ (∀ x, t.sec x = { s.sec x with dyn := match (s.sec x).dyn with
            | .clearing left => .clearing (left - ms)
            | y => y })
        ∧ t.sil.groups = s.sil.groups
        ∧ (∀ c, t.road c = { s.road c with watch := match (s.road c).watch with
            | .settling m left => .settling m (left - ms)
            | w => w })
        ∧ (∀ c, t.track c = { s.track c with records := (s.track c).records.map fun r =>
            if r.running = true ∧ 0 < s.unitCmd c (unitIndex (s.members c) r.n) then
              { r with timer := min (r.timer + ms) 65535 }
            else r })
        ∧ t.hwg = (if s.running then { s.hwg with tickInMs := s.hwg.tickInMs - ms } else s.hwg)
        ∧ t.rds = (if s.running then { s.rds with slotInMs := s.rds.slotInMs - ms } else s.rds)
        ∧ (∀ p, t.port p = if s.mu.phase = .held then s.port p else
            { s.port p with
              watchMs := (s.port p).watchMs - ms
              flush := match (s.port p).flush with
                | .running left => .running (left - ms)
                | f => f
              tx := match (s.port p).tx with
                | .sending bytes left batch rest => .sending bytes (left - 1000 * ms) batch rest
                | .idle => .idle })
        ∧ KeepsAllBut s t [.mapUnit, .frontEnd, .interlock, .tracker, .governor, .dispatcher, .consolePorts, .clock]

/-- The state after reset holds the values of R48, R70, R96, R114, R115, R144, R155 and R160, and the invariants
stated below. That an input is DISABLED until the load ends is the model's choice (notes/assumptions/1.md). -/
def Obligations.ResetHoldsThePowerResetValues : Prop :=
  AtPowerReset State.reset ∧ State.reset.pending = [] ∧ Quiet State.reset ∧ MapInRange State.reset
    ∧ WithinRoom State.reset ∧ NothingWaitsIdle State.reset ∧ ChordAgrees State.reset ∧ HaltedStand State.reset
    ∧ QueuesAgree State.reset

/-- POWER_RESET and BROWN_OUT (R20, R33, R166): every block takes its power reset values, a commit in flight tears the
store, and the lines keep their levels. That commands still waiting stay waiting, and that the lines keep their levels,
are the model's choices (notes/assumptions/3.md, notes/assumptions/30.md). So is that an input is DISABLED until the load
ends (notes/assumptions/1.md), and that BROWN_OUT with 4.2 V or more changes nothing (notes/assumptions/19.md). -/
def Obligations.PowerResetAndBrownOutResetEveryBlock : Prop :=
  ∀ s : State,
    (∃ t, exec .powerReset s = .next t ∧ AtPowerReset t ∧ t.pins = { s.pins with resetn := false }
      ∧ t.mu.store = (if s.mu.phase = .committing then .torn else s.mu.store)
      ∧ (∀ d, (t.input d).high = (s.input d).high) ∧ (∀ p, (t.port p).present = (s.port p).present)
      ∧ t.pending = s.pending)
    ∧ ∀ mv : Nat,
      (mv < 4200 → ∃ t, exec (.brownOut mv) s = .next t ∧ AtPowerReset t
        ∧ t.pins = { s.pins with supplyMv := mv, brownOut := true }
        ∧ t.mu.store = (if s.mu.phase = .committing then .torn else s.mu.store)
        ∧ (∀ d, (t.input d).high = (s.input d).high) ∧ (∀ p, (t.port p).present = (s.port p).present)
        ∧ t.pending = s.pending)
      ∧ (4200 ≤ mv → exec (.brownOut mv) s = .next s)

/-- POWER_RESET_RELEASE, and SUPPLY_LOW and SUPPLY_OK in a held reset (R20, R166): the hold ends, and LOADING begins, at
the event that finds RESETN high and the supply out of brown-out, at 4.4 V after a brown-out and 4.2 V otherwise; else it
goes on. Outside a held reset POWER_RESET_RELEASE changes nothing (notes/assumptions/16.md). That the supply commands
carry the supply in mV is the model's choice (notes/assumptions/19.md); the 60 ms of the load are the manual's most
(notes/assumptions/18.md). -/
def Obligations.ReleaseBeginsTheLoad : Prop :=
  ∀ (s : State) (mv : Nat),
    let limit := if s.pins.brownOut then 4400 else 4200
    let begun (k : Pins) : State := State.looked { s with
      eventNo := s.eventNo + 1, pins := k, mu := { s.mu with phase := .loading, loadLeftMs := 60 } }
    let waits (k : Pins) : State := State.looked { s with eventNo := s.eventNo + 1, pins := k }
    (s.mu.phase ≠ .held → exec (.powerResetRelease mv) s = .next s)
    ∧ (s.raised = [] → s.mu.phase = .held →
      (limit ≤ mv → exec (.powerResetRelease mv) s = .next (begun ⟨true, mv, false⟩))
      ∧ (mv < limit → exec (.powerResetRelease mv) s = .next (waits ⟨true, mv, true⟩))
      ∧ (4200 ≤ mv → ∀ i, i = Instr.supplyLow mv ∨ i = Instr.supplyOk mv →
        (s.pins.resetn = true → limit ≤ mv → exec i s = .next (begun ⟨true, mv, false⟩))
        ∧ (s.pins.resetn = false ∨ mv < limit →
          exec i s = .next (waits ⟨s.pins.resetn, mv, decide (mv < limit)⟩))))

/-- END_OF_THE_LOAD (R22 to R24, R48, R96, R116, R130, R139, R165): the image or a fall-back map is installed, and every
block starts under it; every attached port is told MAP_INVALID with the stage that failed, and SUPPLY_LOW where the
supply lies below V_T, the two in either order (R158); that both have joined before an idle transmitter looks, so that one
batch carries both, is the model's reading (notes/assumptions/24.md). Either fall-back map has every section barred and
every detector disabled, and passes the whole-map check (R23). -/
def Obligations.EndOfTheLoadStartsThePart : Prop :=
  (∀ (s : State) (readable : Bool), s.raised = [] → s.mu.phase = .loading → s.hls.supplyLow = false →
     ∃ t, exec (.endOfTheLoad readable) s = .next t ∧ t.mu.phase = .ready
       ∧ (match s.mu.store with
         | .torn => t.map = LayoutMap.fallback ∧ t.mu.mapInvalid = true ∧ t.mu.failedStage = 1
         | .image m chk =>
           if readable = false ∨ chk ≠ checkValue m then
             t.map = LayoutMap.fallback ∧ t.mu.mapInvalid = true ∧ t.mu.failedStage = 1
           else if m.valid = true then t.map = m ∧ t.mu.mapInvalid = false
           else t.map = m.repaired ∧ t.mu.mapInvalid = true ∧ t.mu.failedStage = 2)
       ∧ t.mu.store = s.mu.store
       ∧ (∀ x, t.sec x = ⟨if (t.sectionRec x).barred then .barred else .free, 0, []⟩)
       ∧ (∀ g, t.grp g = ⟨none, []⟩) ∧ (∀ c, t.road c = ⟨[], .idle, .idle⟩)
       ∧ (∀ d, t.input d = ⟨(s.input d).high, (t.map.startState d (s.input d).high).1,
           (t.map.startState d (s.input d).high).2⟩)
       ∧ t.dfe.seen = s.dfe.seen ∧ t.dfe.chord = s.dfe.chord
       ∧ t.rds.slotInMs = 0 ∧ t.hwg.tickInMs = 50
       ∧ t.rds.period = refreshPeriod t.map.settings.refresh s.activeTrucks.length
       ∧ t.hls = { s.hls with supplyLow := decide (s.pins.supplyMv < 4600 + 100 * t.map.settings.threshold) }
       ∧ KeepsAllBut s t
         [.mapUnit, .frontEnd, .interlock, .governor, .dispatcher, .consolePorts, .haltSupervisor]
       ∧ ∀ q,
         let bad : List Notice :=
           if t.mu.mapInvalid then [⟨.mapInvalid, none, none, none, none, t.mu.failedStage⟩] else []
         let low : List Notice := if t.hls.supplyLow then [⟨.supplyLow, none, none, none, none, 0⟩] else []
         if (s.port q).attached then
           t.port q = ((bad ++ low).foldl PortState.notify (s.port q)).look
             ∨ t.port q = ((low ++ bad).foldl PortState.notify (s.port q)).look
         else t.port q = s.port q)
  ∧ ∀ m n : LayoutMap, n = LayoutMap.fallback ∨ n = m.repaired →
    n.valid = true ∧ (∀ x, (n.sections.nth x).barred = true) ∧ (∀ d, (n.detectors.nth d).enabled = false)
      ∧ n.settings = ⟨⟨0, 3, 3, 3⟩, 0, 400, 4⟩

/-! ### Ports -/

/-- ATTACH (R24, R43, R145, R146, R155). On a present line that shows no console it is the change of the line, which starts
the watch of 50 ms. On a line that shows one it is the end of the watch, what is left of it having passed: a DETACHED port
attaches, starts afresh, and is told of an invalid map. By itself the event is due exactly when a DETACHED port's line
shows a console and its watch has run out, so a change that the line takes back before brings none. The two commands in
one are the model's choice (notes/assumptions/7.md, notes/assumptions/10.md); so is that on an ATTACHED port whose line
shows its console, or in a held reset, the command changes nothing (notes/assumptions/16.md). -/
def Obligations.AttachGivesAFreshPort : Prop :=
  ∀ (s : State) (p : Port),
    let q := s.port p
    let v := s.advance q.watchMs
    (q.present = false →
      exec (.attach p) s = .next { s with ports := s.ports.put p { q with present := true, watchMs := 50 } })
    ∧ (q.present = true → s.mu.phase = .held ∨ q.attached = true → exec (.attach p) s = .next s)
    ∧ (s.raised = [] → q.present = true → s.mu.phase ≠ .held → q.attached = false →
      exec (.attach p) s = .next (State.looked { v with
          eventNo := s.eventNo + 1
          ports := v.ports.put p
            ⟨true, 0, true, true, 2, none, .hunt, [], false,
              (if s.mu.mapInvalid then [⟨.mapInvalid, none, none, none, none, s.mu.failedStage⟩] else []),
              (if s.mu.mapInvalid then .running 40 else .stopped), .idle, 0⟩
          dfe := { v.dfe with seen := s.dfe.seen.put p [] }
          rds := { v.rds with auxQueues := s.rds.auxQueues.put p [] } }))
    ∧ (Instr.attach p ∈ s.due ↔ s.mu.phase ≠ .held ∧ q.present = true ∧ q.attached = false ∧ q.watchMs = 0)

/-- DETACH (R43, R58, R145, R146, R155). On a present line that shows a console it is the change of the line, which starts
the watch of 50 ms. On a line that shows none it is the end of the watch, what is left of it having passed: an ATTACHED
port detaches, its queues, seen set and aux queue are emptied and its transmission is aborted; its convoys lose their
owner, UNFORMED ones taking the defaults. By itself the event is due exactly when an ATTACHED port's line shows no console
and its watch has run out, so a change that the line takes back before brings none. The two commands in one are the
model's choice (notes/assumptions/7.md, notes/assumptions/10.md); so is that on a DETACHED port whose line shows none, or
in a held reset, the command changes nothing (notes/assumptions/16.md), and that notify setting and batch sequence stay, a
dash in R155 (notes/assumptions/25.md). -/
def Obligations.DetachOrphansThePortsConvoys : Prop :=
  ∀ (s : State) (p : Port),
    let v := s.advance (s.port p).watchMs
    ((s.port p).present = true →
      exec (.detach p) s = .next { s with ports := s.ports.put p { s.port p with present := false, watchMs := 50 } })
    ∧ ((s.port p).present = false → s.listens p = false → exec (.detach p) s = .next s)
    ∧ (s.raised = [] → (s.port p).present = false → s.listens p = true →
      ∃ t, exec (.detach p) s = .next t
      ∧ t.port p = { s.port p with
          present := false, watchMs := 0, attached := false, lastConvoy := none, receiver := .hunt, replies := []
          reserved := false, notices := [], flush := .stopped, tx := .idle }
      ∧ (∀ q, q ≠ p → Noticed (v.port q) (t.port q))
      ∧ t.dfe = { v.dfe with seen := s.dfe.seen.put p [] }
      ∧ t.rds = { v.rds with auxQueues := s.rds.auxQueues.put p [] }
      ∧ t.cvt.trucks = s.cvt.trucks
      ∧ (∀ c, t.convoy c =
          if (s.convoy c).owner = some p then
            (if (s.convoy c).state = .unformed then
              { s.convoy c with owner := none, params := ⟨40, 8, 2, 4, 2, 15⟩, thr := ⟨1000, 2000, 6000⟩ }
            else { s.convoy c with owner := none })
          else s.convoy c)
      ∧ KeepsAllBut v t [.consolePorts, .frontEnd, .dispatcher, .convoyTable])
    ∧ (Instr.detach p ∈ s.due ↔ s.mu.phase ≠ .held ∧ (s.port p).present = false ∧ (s.port p).attached = true
      ∧ (s.port p).watchMs = 0)

/-- What a port's receiver discards. INTER_BYTE_GAP and MESSAGE_DISCARDED (R148): the partial message, with no other
effect; the byte that ends a gap is examined in HUNT. R146, R149 step 1: a detached port discards every byte and every
request, and a request that finds four reply places taken has no effect but the receiver's return to HUNT. -/
def Obligations.BrokenAndUnheardMessagesAreDiscarded : Prop :=
  (∀ (s : State) (p : Port) (b : Byte), s.raised = [] → s.listens p = true →
    exec (.interByteGap p b) s = .next (State.looked { s with
      eventNo := s.eventNo + 1
      ports := s.ports.put p { s.port p with receiver := if b = 0x3C then .awaitLength else .hunt } })
    ∧ exec (.messageDiscarded p) s = .next (State.looked { s with
      eventNo := s.eventNo + 1, ports := s.ports.put p { s.port p with receiver := .hunt } }))
  ∧ (∀ (s : State) (p : Port) (b : Byte), s.listens p = false →
    exec (.interByteGap p b) s = .next s ∧ exec (.messageDiscarded p) s = .next s)
  ∧ ∀ (s : State) (i : Instr) (p : Port) (m : Message), i.asMessage = some (p, m) →
    (s.listens p = false → exec i s = .next s)
    ∧ (s.raised = [] → s.listens p = true → 4 ≤ (s.port p).placesTaken →
      exec i s = .next (State.looked { s with
        eventNo := s.eventNo + 1, ports := s.ports.put p { s.port p with receiver := .hunt } }))

/-- Steps 2 to 4 of R149, with R21 and R25: during LOADING every request is BUSY, whatever its kind and the port's level;
an unknown kind is answered with its code, bit 7 set, and no payload; a kind allowed at level 0 alone is NOT_PERMITTED
to another level; and a map request during a commit is BUSY. That a BUSY reply to a code with bit 7 set keeps that code is
the model's choice (notes/assumptions/35.md). -/
def Obligations.RequestsPassTheGenericChecks : Prop :=
  ∀ (s : State) (i : Instr) (p : Port) (m : Message), i.asMessage = some (p, m) → i.wellFormed = true →
    s.raised = [] → (s.port p).attached = true → (s.port p).placesTaken < 4 →
    (s.mu.phase = .loading → exec i s = .next (s.replied p (s.port p).lastConvoy (m.kind ||| 0x80) m.tag .busy
      (if m.kind.toNat ∈ [0x38, 0x39, 0x3A] then s.haltBytes else [])))
    ∧ (s.running = true → m.kind.toNat ∉ requestCodes →
      exec i s = .next (s.replied p (s.port p).lastConvoy (m.kind ||| 0x80) m.tag .unknownKind []))
    ∧ (s.running = true → s.level p ≠ 0 →
      m.kind.toNat ∈ [0x02, 0x03, 0x04, 0x05, 0x06, 0x07, 0x23, 0x24, 0x25, 0x26, 0x39, 0x3A] →
      exec i s = .next (s.replied p (s.port p).lastConvoy (m.kind ||| 0x80) m.tag .notPermitted
        (if m.kind.toNat ∈ [0x39, 0x3A] then s.haltBytes else [])))
    ∧ (s.mu.phase = .committing → (s.level p = 0 ∨ m.kind = 0x01) →
      m.kind.toNat ∈ [0x01, 0x02, 0x03, 0x04, 0x05, 0x06, 0x07] →
      exec i s = .next (s.replied p (s.port p).lastConvoy (m.kind ||| 0x80) m.tag .busy []))

/-! ### Map requests -/

/-- EDIT_SECTION (R18, R27): a BARRED section with an empty queue, on no formed convoy's route, takes the record, with
stock 0 unless it stays a BAY; in any other case BAD_STATE. A body that is no entry is BAD_ARG. A section entry in the
layout of Table 1.6 is read as the record it shows, the bar flag taken as set. -/
def Obligations.EditSectionReplacesTheRecord : Prop :=
  (∀ (s : State) (p : Port) (tag : Byte) (body : List Byte), Serves s p → s.level p = 0 → s.mu.phase = .ready →
     sectionEntry body = none →
     exec (.editSection p tag body) s = .next (s.replied p (s.port p).lastConvoy 0x82 tag .badArg []))
  ∧ (∀ (s : State) (p : Port) (tag : Byte) (body : List Byte) (x : Sec) (r : SectionRec), Serves s p → s.level p = 0 →
     s.mu.phase = .ready → sectionEntry body = some (x, r) →
     if (s.sec x).dyn = .barred ∧ (s.sec x).queue = [] ∧ (∀ c, s.formed c = true → x ∉ (s.road c).route)
         ∧ (s.map.isBay x = true → 0 < (s.sec x).stock → r.kind = .bay) then
       exec (.editSection p tag body) s
         = .next (((s.setMap { s.map with sections := s.map.sections.put x r }).modSec x fun q =>
             { q with stock := if s.map.isBay x = true ∧ r.kind = .bay then q.stock else 0 }).replied
           p (s.port p).lastConvoy 0x82 tag .ok (sectionBytes x r))
     else exec (.editSection p tag body) s = .next (s.replied p (s.port p).lastConvoy 0x82 tag .badState []))
  ∧ ∀ (x : Sec) (r : SectionRec), r.kind ≠ .code3 → 20 ≤ r.length → r.length ≤ 2000 → r.entry.1 ≤ 59 →
    (∀ b, r.brake = some b → b.1 ≤ 59) → (∀ n, r.succ0 = some n → n < 48) → (∀ n, r.succ1 = some n → n < 48) →
    sectionEntry (sectionBytes x r) = some (x, { r with barred := true })

/-- EDIT_ZONE (R19, R28): with no section of the pair held, the profile takes the four fields, its caps clamped; CLAMPED
names the clamped caps. With one held, BAD_STATE. A body that is no entry is BAD_ARG. -/
def Obligations.EditZoneClampsTheCaps : Prop :=
  ∀ (s : State) (p : Port) (tag : Byte) (body : List Byte), Serves s p → s.level p = 0 → s.mu.phase = .ready →
    (profileEntry body = none →
      exec (.editZone p tag body) s = .next (s.replied p (s.port p).lastConvoy 0x83 tag .badArg []))
    ∧ ∀ (n : ProfileNo) (r : Profile), profileEntry body = some (n, r) →
    let speed := if r.speedCap < 4 then 4 else r.speedCap
    let approach := if r.approachCap = 0 then 1 else if speed < r.approachCap then speed else r.approachCap
    let mask := (if speed = r.speedCap then 0 else 1) + (if approach = r.approachCap then 0 else 2)
    ((∃ x c, (s.sectionRec x).zone.1 / 2 = n.1 ∧ (s.sec x).dyn = .held c) →
      exec (.editZone p tag body) s = .next (s.replied p (s.port p).lastConvoy 0x83 tag .badState []))
    ∧ ((∀ x c, (s.sectionRec x).zone.1 / 2 = n.1 → (s.sec x).dyn ≠ .held c) →
      exec (.editZone p tag body) s
        = .next (State.replied { s with mu := { s.mu with map :=
            { s.map with profiles := s.map.profiles.put n ⟨speed, approach, r.holdCode, r.settleCode⟩ } } }
          p (s.port p).lastConvoy 0x83 tag (if mask = 0 then .ok else .clamped)
          (byte mask :: profileBytes n ⟨speed, approach, r.holdCode, r.settleCode⟩)))

/-- EDIT_DETECTOR (R29, R39, R46): setting and filter code are replaced; the reported inputs, and no others, restart; an
asserted chord that loses an input is released. A body that is no entry is BAD_ARG. -/
def Obligations.EditDetectorRestartsTheReportedInputs : Prop :=
  ∀ (s : State) (p : Port) (tag : Byte) (body : List Byte), Serves s p → s.level p = 0 → s.mu.phase = .ready →
    (detectorEntry body = none →
      exec (.editDetector p tag body) s = .next (s.replied p (s.port p).lastConvoy 0x84 tag .badArg []))
    ∧ ∀ (d : Inp) (u : DetectorSetting) (code : Fin 8), ChordAgrees s → detectorEntry body = some (d, u, code) →
    ∃ t, exec (.editDetector p tag body) s = .next t
      ∧ t.mu = { s.mu with map := { s.map with
          detectors := s.map.detectors.put d u, filters := s.map.filters.put (filterOf d) code } }
      ∧ (∀ e, t.input e =
          if (e = d ∧ u ≠ s.map.detectors.nth d) ∨ (filterOf e = filterOf d ∧ code ≠ s.map.filterCode d) then
            ⟨(s.input e).high, (t.map.startState e (s.input e).high).1, (t.map.startState e (s.input e).high).2⟩
          else s.input e)
      ∧ t.dfe.seen = s.dfe.seen ∧ t.dfe.chord = t.chordComplete ∧ t.hls = { s.hls with chord := t.dfe.chord }
      ∧ (t.dfe.chord = true → s.dfe.chord = true)
      ∧ KeepsAllBut s t [.mapUnit, .frontEnd, .consolePorts, .haltSupervisor]
      ∧ Answers s t p (s.port p).lastConvoy 0x84 tag .ok (t.map.detectorBytes d)

/-- EDIT_GROUP (R30): the body gives a group and its new list in ascending order; with the group unheld and every
section of both lists BARRED, the list is replaced, in ascending order; else BAD_STATE. A body without a group, or
with more than 8 numbers, one above 47 or one twice, is BAD_ARG. -/
def Obligations.EditGroupReplacesTheList : Prop :=
  ∀ (s : State) (p : Port) (tag : Byte) (body : List Byte), Serves s p → s.level p = 0 → s.mu.phase = .ready →
    ((body = [] ∨ ∃ b l, body = b :: l
        ∧ (7 < b.toNat ∨ 8 < l.length ∨ (∃ n ∈ l, 47 < n.toNat) ∨ ¬ l.Nodup)) →
      exec (.editGroup p tag body) s = .next (s.replied p (s.port p).lastConvoy 0x85 tag .badArg []))
    ∧ ∀ (g : Grp) (l : List Nat), groupEntry body = some (g, l) →
    (∃ b rest, body = b :: rest ∧ b.toNat = g.1 ∧ l.Pairwise (· < ·) ∧ ∀ n, n ∈ l ↔ ∃ e ∈ rest, e.toNat = n)
    ∧ (GroupList.of l).numbers = l ∧
    if (s.grp g).holder = none ∧ (∀ x : Sec, x.1 ∈ s.map.groupList g ++ l → (s.sec x).dyn = .barred) then
      exec (.editGroup p tag body) s
        = .next (State.replied { s with mu := { s.mu with map := { s.map with groups := s.map.groups.put g (.of l) } } }
          p (s.port p).lastConvoy 0x85 tag .ok ([byte g.1, byte l.length] ++ l.map byte))
    else exec (.editGroup p tag body) s = .next (s.replied p (s.port p).lastConvoy 0x85 tag .badState [])

/-- EDIT_SETTINGS (R31, R47, R139, R165): the four items are clamped and replaced at once, and each takes effect at the
event: the chord is tested under the new selection, the supply compared with the new threshold, P recomputed. A body
that is no entry, a selection above 3, no level 0, or a chord input that is a section's detector is BAD_ARG. -/
def Obligations.EditSettingsTakesEffectAtOnce : Prop :=
  ∀ (s : State) (p : Port) (tag : Byte) (body : List Byte), Serves s p → s.level p = 0 → s.mu.phase = .ready →
    (body.length ≠ 8 ∨ (∃ u, settingsEntry body = some u ∧ (3 < u.chord ∨ (∀ q, u.levels.nth q ≠ 0)
        ∨ ∃ x, ∃ d ∈ chordInputs u.chord, (s.sectionRec x).entry = d ∨ (s.sectionRec x).brake = some d)) →
      exec (.editSettings p tag body) s = .next (s.replied p (s.port p).lastConvoy 0x86 tag .badArg []))
    ∧ ∀ (u : Settings), ChordAgrees s → settingsEntry body = some u → u.chord ≤ 3 → (∃ q, u.levels.nth q = 0) →
    (∀ x, ∀ d ∈ chordInputs u.chord, (s.sectionRec x).entry ≠ d ∧ (s.sectionRec x).brake ≠ some d) →
    ∃ t, exec (.editSettings p tag body) s = .next t
      ∧ t.mu = { s.mu with map := { s.map with settings := u.clamped } }
      ∧ (∀ q, t.level q = min (u.levels.nth q) 3) ∧ t.map.settings.chord = u.chord
      ∧ t.map.settings.refresh = min (max (u.refresh / 10 * 10) 100) 1000
      ∧ t.map.settings.threshold = min u.threshold 15
      ∧ t.dfe = { s.dfe with chord := t.chordComplete } ∧ t.hls.chord = t.chordComplete
      ∧ t.hls.halted = (s.hls.halted || (t.chordComplete && !s.dfe.chord))
      ∧ t.hls.supplyLow = (if s.hls.supplyLow then
          decide (s.pins.supplyMv < 4750 + 100 * t.map.settings.threshold)
        else decide (s.pins.supplyMv < 4600 + 100 * t.map.settings.threshold))
      ∧ t.rds.period = (if u.clamped.refresh = s.map.settings.refresh then s.rds.period
        else refreshPeriod u.clamped.refresh s.activeTrucks.length)
      ∧ KeepsAllBut s t
        [.mapUnit, .frontEnd, .governor, .dispatcher, .tracker, .consolePorts, .haltSupervisor]
      ∧ Answers s t p (s.port p).lastConvoy 0x86 tag (if u.mask u.clamped = 0 then .ok else .clamped)
        (byte (u.mask u.clamped) :: settingsBytes u.clamped)

/-- COMMIT_MAP and COMMIT_END (R32): the acceptance takes the snapshot, reserves a reply place and queues no reply;
the end answers OK and clears map-invalid exactly when the store reads back as the snapshot with its check value. A
body is BAD_ARG. That COMMIT_END without a commit in flight changes nothing is the model's choice
(notes/assumptions/16.md); the 400 ms of a commit are the manual's most (notes/assumptions/18.md). -/
def Obligations.CommitsEndByTheirReadBack : Prop :=
  (∀ (s : State) (p : Port) (tag : Byte), Serves s p → s.level p = 0 → s.mu.phase = .ready →
    (∀ body, body ≠ [] →
      exec (.commitMap p tag body) s = .next (s.replied p (s.port p).lastConvoy 0x87 tag .badArg []))
    ∧ exec (.commitMap p tag []) s = .next (State.looked { s with
      eventNo := s.eventNo + 1
      mu := { s.mu with phase := .committing, commit := some ⟨p, tag, s.map, 400⟩ }
      ports := s.ports.put p { s.port p with receiver := .hunt, reserved := true } }))
  ∧ (∀ (s : State) (back : StoreContents), s.mu.phase ≠ .committing ∨ s.mu.commit = none →
    exec (.commitEnd back) s = .next s)
  ∧ ∀ (s : State) (k : Commit) (back : StoreContents), s.raised = [] → s.mu.phase = .committing →
    s.mu.commit = some k →
    let agrees := decide (back = .image k.snapshot (checkValue k.snapshot))
    exec (.commitEnd back) s = .next (State.looked { s with
      eventNo := s.eventNo + 1
      mu := { s.mu with
        phase := .ready, commit := none, store := back, mapInvalid := s.mu.mapInvalid && !agrees }
      ports := if (s.port k.port).reserved then
          s.ports.put k.port { s.port k.port with
            reserved := false
            replies := (s.port k.port).replies ++ [⟨0x87, k.tag, [if agrees then 0x00 else 0x0B]⟩] }
        else s.ports })

/-! ### Queries -/

/-- READ_MAP (R26), QUERY_CONVOY (R69) and QUERY_SECTION (R95): the entry, the convoy or the section as it stands, in the
layout of Table 9.9; nothing changes but the reply, not even the port's last convoy. QUERY_DETECTORS (R44): the accepted
level of each input, the port's seen set and the chord state; the port's seen set is emptied, and no other's. A body of a
wrong length, or without such a section, is BAD_ARG (R151). -/
def Obligations.QueriesAnswerByWhatStands : Prop :=
  (∀ (s : State) (p : Port) (tag : Byte), Serves s p →
    (s.mu.phase = .ready → ∀ (body : List Byte),
      (∀ e, mapEntryArg body = some e →
        exec (.readMap p tag body) s = .next (s.replied p (s.port p).lastConvoy 0x81 tag .ok (s.map.entryBytes e)))
      ∧ (mapEntryArg body = none →
        exec (.readMap p tag body) s = .next (s.replied p (s.port p).lastConvoy 0x81 tag .badArg [])))
    ∧ (∀ (b : Byte) (c : Conv), s.named p b = some c →
      exec (.queryConvoy p tag [b]) s = .next (s.replied p (s.port p).lastConvoy 0x99 tag .ok
        ([byte (convoyNumber c), (s.convoy c).status, byte (s.memberCount c)] ++ (s.members c).flatMap Member.bytes
          ++ (s.convoy c).paramBytes ++ faultBytes (s.convoy c).fault ++ [byte (s.road c).route.length]
          ++ (s.road c).route.map (fun x => byte x.1) ++ [byte ((s.track c).head + 16 * (s.track c).tail)]
          ++ (truckAddrs (s.members c)).flatMap fun a => [byte (s.speed a).set, byte (s.speed a).cmd])))
    ∧ (∀ (b : Byte) (x : Sec), secArg b = some x →
      exec (.querySection p tag [b]) s = .next (s.replied p (s.port p).lastConvoy 0xA7 tag .ok
        ([b, byte (s.sec x).dyn.code, byte ((s.secHolder x).elim 0 convoyNumber), byte (s.sec x).stock]
          ++ twoBytes (s.sec x).dyn.leftMs ++ byte (s.sec x).queue.length
          :: (s.sec x).queue.map (fun e => byte (convoyNumber e.conv + 16 * e.level))
          ++ (match (s.sectionRec x).group with
            | none => [0xFF, 0, 0]
            | some g => [byte g.1, byte ((s.grp g).holder.elim 0 convoyNumber), byte (s.grp g).queue.length]
              ++ (s.grp g).queue.map fun e => byte (convoyNumber e.conv + 16 * e.level)))))
    ∧ (∀ body : List Byte, (∀ b, body = [b] → 47 < b.toNat) →
      exec (.querySection p tag body) s = .next (s.replied p (s.port p).lastConvoy 0xA7 tag .badArg []))
    ∧ (exec (.queryDetectors p tag []) s
      = .next (State.replied { s with dfe := { s.dfe with seen := s.dfe.seen.put p [] } } p (s.port p).lastConvoy 0x88
        tag .ok (inputBytes (fun d => (s.input d).cond.accepted) ++ inputBytes (fun d => (s.dfe.seen.nth p).contains d)
          ++ [if s.dfe.chord then 1 else 0])))
    ∧ ∀ body : List Byte, body ≠ [] →
      exec (.queryDetectors p tag body) s = .next (s.replied p (s.port p).lastConvoy 0x88 tag .badArg []))
  ∧ ∀ (f : Inp → Bool) (d : Inp), (inputBytes f).length = 8
    ∧ ((inputBytes f).getD (d.1 / 8) 0).toNat.testBit (d.1 % 8) = f d

/-! ### Convoys -/

/-- R150: a request that names a convoy is refused with BAD_ARG without a convoy number, or with one that names none, and
with NOT_OWNER from a port that is neither the owner nor at level 0, unless it is a CLAIM or a QUERY_CONVOY. The last
convoy becomes a number 1 to 12, whatever the outcome, but for a QUERY_CONVOY, which leaves it. A kind that carries
nothing after the convoy number is refused with BAD_ARG where its body does (R151). -/
def Obligations.ConvoyRequestsResolveTheConvoyAndCheckItsOwner : Prop :=
  ∀ (s : State) (i : Instr) (p : Port) (m : Message), i.asMessage = some (p, m) → i.wellFormed = true → Serves s p →
    m.kind.toNat ∈ [0x10, 0x11, 0x12, 0x13, 0x14, 0x15, 0x16, 0x17, 0x18, 0x19, 0x20, 0x21, 0x22] →
    (m.body = [] → exec i s = .next (s.replied p (s.port p).lastConvoy (m.kind ||| 0x80) m.tag .badArg []))
    ∧ ∀ b rest, m.body = b :: rest →
      (s.named p b = none ↔ 12 < b.toNat ∨ b = 0 ∧ (s.port p).lastConvoy = none)
      ∧ (s.named p b = none → exec i s = .next (s.replied p (s.port p).lastConvoy (m.kind ||| 0x80) m.tag .badArg []))
      ∧ (∀ c, s.named p b = some c → (b ≠ 0 → convoyNumber c = b.toNat) ∧ (b = 0 → (s.port p).lastConvoy = some c)
        ∧ (m.kind ≠ 0x10 → m.kind ≠ 0x19 → s.owns p c = false → s.level p ≠ 0 →
          exec i s = .next (s.replied p (s.lastAfter p b c) (m.kind ||| 0x80) m.tag .notOwner []))
        ∧ (∃ t, exec i s = .next t
          ∧ (t.port p).lastConvoy = if m.kind = 0x19 then (s.port p).lastConvoy else s.lastAfter p b c)
        ∧ (rest ≠ [] → m.kind.toNat ∈ [0x10, 0x11, 0x14, 0x16, 0x17, 0x18, 0x19, 0x21, 0x22] →
          (m.kind = 0x10 ∨ m.kind = 0x19 ∨ MayCommand s p c) →
          exec i s = .next (s.replied p (if m.kind = 0x19 then (s.port p).lastConvoy else s.lastAfter p b c)
            (m.kind ||| 0x80) m.tag .badArg [])))

/-- CLAIM and RELEASE_CLAIM (R53, R56, R57): an unclaimed convoy that is UNFORMED, or stands still, or is wanted by a
level-0 port, takes the port as its owner and nothing else changes. The owner alone may leave it, whatever another
port's level: UNFORMED, it takes the defaults; formed, it keeps the rest, and the level-0 ports are told ORPHANED. -/
def Obligations.ClaimAndReleaseSetAndClearTheOwner : Prop :=
  ∀ (s : State) (p : Port) (tag b : Byte) (c : Conv), Serves s p → s.named p b = some c →
    ((if (s.convoy c).owner = none ∧
          (s.level p = 0 ∨ (s.convoy c).state ∈ [ConvoyState.unformed, .standing, .arrived, .stopped]) then
        exec (.claim p tag [b]) s = .next (State.replied (s.modConvoy c fun v => { v with owner := some p })
          p (s.lastAfter p b c) 0x90 tag .ok ((s.modConvoy c fun v => { v with owner := some p }).fullConvoy c))
      else exec (.claim p tag [b]) s = .next (s.replied p (s.lastAfter p b c) 0x90 tag .badState []))
    ∧ (s.owns p c = false →
      exec (.releaseClaim p tag [b]) s = .next (s.replied p (s.lastAfter p b c) 0x91 tag .notOwner []))
    ∧ (s.owns p c = true → ∃ t, exec (.releaseClaim p tag [b]) s = .next t
      ∧ t.convoy c = (if (s.convoy c).state = .unformed then
          { s.convoy c with owner := none, params := ⟨40, 8, 2, 4, 2, 15⟩, thr := ⟨1000, 2000, 6000⟩ }
        else { s.convoy c with owner := none })
      ∧ (∀ d, d ≠ c → t.convoy d = s.convoy d) ∧ t.cvt.trucks = s.cvt.trucks
      ∧ KeepsAllBut s t [.convoyTable, .consolePorts]
      ∧ (∀ q, let u := if q = p then (s.port p).after (s.lastAfter p b c) 0x91 tag .ok (t.shortPayload c) else s.port q
          t.port q = (if (s.convoy c).state = .unformed then u
            else s.told .levelZero ⟨.orphaned, some c, none, none, none, 0⟩ q u).look)))

/-- FORM (R59, R60, R98, R115, R133, R139): accepted, the member list is stored, the section is held and is the whole
route, its stock falls, the trucks become ACTIVE at speed 0 and due at once, the units are DOWN, and P is recomputed.
Otherwise the first check that fails gives the reply, and nothing changes but the last convoy. That a body that fails
before its member list, by a section out of range or a length, is refused without a member index is the model's reading
(notes/assumptions/20.md). -/
def Obligations.FormMakesAStandingConvoy : Prop :=
  (∀ (s : State) (p : Port) (tag b bx : Byte) (rest : List Byte) (c : Conv) (x : Sec) (ps : List (Byte × Byte))
     (ms : List Member), Serves s p → s.named p b = some c → s.owns p c = true → secArg bx = some x →
     memberPairs rest = some ps → memberList ps = .ok ms → (s.sectionRec x).group = none →
     (s.convoy c).state = .unformed → s.hls.halted = false → (s.sec x).dyn ∈ [SecState.free, .parked] →
     (∀ a ∈ truckAddrs ms, s.usage a = .free) →
     (ms.map Member.len).sum + (unitCount ms - 1) * (s.convoy c).params.standGap ≤ (s.sectionRec x).length →
     ∃ t, exec (.form p tag (b :: bx :: rest)) s = .next t
       ∧ t.convoy c = { s.convoy c with state := .standing, members := ms, fault := none, resume := none }
       ∧ t.sil = { s.sil with
           sections := s.sil.sections.put x
             ⟨.held c, if s.map.isBay x then min ((s.sec x).stock - trailerCount ms) 8 else (s.sec x).stock,
               (s.sec x).queue⟩
           roads := s.sil.roads.put c ⟨[x], .idle, .idle⟩ }
       ∧ t.track c = ⟨0, 0, [], false, t.allDown c⟩
       ∧ (∀ a ∈ truckAddrs ms, Activated s t c a) ∧ (∀ a, a ∉ truckAddrs ms → t.usage a = s.usage a)
       ∧ KeepsOtherTrucks s t (truckAddrs ms) ∧ KeepsOtherConvoys s t c
       ∧ t.rds = { s.rds with
           trucks := t.rds.trucks, period := refreshPeriod s.map.settings.refresh t.activeTrucks.length }
       ∧ KeepsAllBut s t [.convoyTable, .interlock, .tracker, .governor, .dispatcher, .consolePorts]
       ∧ t.ports = (s.ports.put p ((s.port p).after (s.lastAfter p b c) 0x92 tag .ok (t.shortPayload c))).map PortState.look)
  ∧ ∀ (s : State) (p : Port) (tag b bx : Byte) (rest : List Byte) (c : Conv), Serves s p → s.named p b = some c →
    let refusal (code : ReplyCode) (detail : List Byte) : Prop :=
      exec (.form p tag (b :: bx :: rest)) s = .next (s.replied p (s.lastAfter p b c) 0x92 tag code detail)
    (s.owns p c = false → refusal .notOwner []
      ∧ exec (.form p tag [b]) s = .next (s.replied p (s.lastAfter p b c) 0x92 tag .notOwner []))
    ∧ (s.owns p c = true →
      exec (.form p tag [b]) s = .next (s.replied p (s.lastAfter p b c) 0x92 tag .badArg [])
      ∧ ((secArg bx = none ∨ memberPairs rest = none) → refusal .badArg [])
      ∧ ∀ x ps, secArg bx = some x → memberPairs rest = some ps →
        (∀ i, memberList ps = .error i → refusal .badArg [byte i])
        ∧ ∀ ms, memberList ps = .ok ms →
          ((s.sectionRec x).group ≠ none → refusal .badArg [])
          ∧ ((s.sectionRec x).group = none →
            ((s.convoy c).state ≠ .unformed ∨ s.hls.halted = true ∨ (s.sec x).dyn ∉ [SecState.free, .parked] →
              refusal .badState [])
            ∧ ((s.convoy c).state = .unformed → s.hls.halted = false → (s.sec x).dyn ∈ [SecState.free, .parked] →
              (∀ front a back, truckAddrs ms = front ++ a :: back → (∀ e ∈ front, s.usage e = .free) →
                s.usage a ≠ .free → refusal .badState [byte (radioAddress a)])
              ∧ ((∀ a ∈ truckAddrs ms, s.usage a = .free) →
                (s.sectionRec x).length < convoyLength ms (s.convoy c).params.standGap →
                refusal .tooShort (twoBytes (convoyLength ms (s.convoy c).params.standGap)
                  ++ twoBytes (s.sectionRec x).length)))))

/-- REFORM (R61, R62, R98, R133, R139, R141): accepted, dropped trucks retire, new ones become ACTIVE, kept ones keep all;
the members and the bay's stock follow the new list, every follower unit is DOWN, and P is recomputed. Otherwise the
first check of R61 that fails gives the reply, and nothing changes but the last convoy. That P is recomputed at every
accepted REFORM, and that a list of half a member is refused without an index, are the model's readings
(notes/assumptions/31.md, notes/assumptions/20.md). -/
def Obligations.ReformExchangesMembers : Prop :=
  (∀ (s : State) (p : Port) (tag b : Byte) (rest : List Byte) (c : Conv) (x y : Sec) (ps : List (Byte × Byte))
    (ms : List Member), MembersActive s → Commands s p b c → memberPairs rest = some ps → memberList ps = .ok ms →
    (s.convoy c).state ∈ [ConvoyState.standing, .arrived] → (s.track c).tail = (s.track c).head →
    s.headSec? c = some x → (s.road c).route.getLast? = some y →
    (∀ a ∈ truckAddrs ms, s.usage a = .free ∨ a ∈ truckAddrs (s.members c)) →
    (s.map.isBay x = false → trailerCount (s.members c) ≤ trailerCount ms) →
    convoyLength ms (s.convoy c).params.standGap ≤ min (s.sectionRec x).length (s.sectionRec y).length →
    ∃ t, exec (.reform p tag (b :: rest)) s = .next t
      ∧ t.convoy c = { s.convoy c with members := ms }
      ∧ (∀ a ∈ truckAddrs (s.members c), a ∉ truckAddrs ms → Retired s t c a)
      ∧ (∀ a ∈ truckAddrs ms, a ∉ truckAddrs (s.members c) → Activated s t c a)
      ∧ (∀ a, (a ∈ truckAddrs ms ↔ a ∈ truckAddrs (s.members c)) →
        t.usage a = s.usage a ∧ t.speed a = s.speed a ∧ t.radio a = s.radio a)
      ∧ (∀ q, t.auxQueue q = (s.auxQueue q).filter fun e =>
          decide (e.addr ∉ truckAddrs (s.members c) ∨ e.addr ∈ truckAddrs ms))
      ∧ t.sil = { s.sil with sections := s.sil.sections.put x { s.sec x with
          stock := if s.map.isBay x then
            min ((s.sec x).stock + trailerCount (s.members c) - trailerCount ms) 8 else (s.sec x).stock } }
      ∧ t.track c = { s.track c with units := t.allDown c }
      ∧ KeepsOtherConvoys s t c
      ∧ t.rds = { s.rds with
          trucks := t.rds.trucks, auxQueues := t.rds.auxQueues
          period := refreshPeriod s.map.settings.refresh t.activeTrucks.length }
      ∧ KeepsAllBut s t [.convoyTable, .interlock, .tracker, .governor, .dispatcher, .consolePorts]
      ∧ t.ports = (s.ports.put p ((s.port p).after (s.lastAfter p b c) 0x93 tag .ok (t.shortPayload c))).map PortState.look)
  ∧ ∀ (s : State) (p : Port) (tag b : Byte) (rest : List Byte) (c : Conv), Commands s p b c →
    let refusal (code : ReplyCode) (detail : List Byte) : Prop :=
      exec (.reform p tag (b :: rest)) s = .next (s.replied p (s.lastAfter p b c) 0x93 tag code detail)
    (memberPairs rest = none → refusal .badArg [])
    ∧ ∀ ps, memberPairs rest = some ps →
      (∀ i, memberList ps = .error i → refusal .badArg [byte i])
      ∧ ∀ ms, memberList ps = .ok ms →
        ((s.convoy c).state ∉ [ConvoyState.standing, .arrived] ∨ (s.track c).tail ≠ (s.track c).head →
          refusal .badState [])
        ∧ ((s.convoy c).state ∈ [ConvoyState.standing, .arrived] → (s.track c).tail = (s.track c).head →
          ∀ x y, s.headSec? c = some x → (s.road c).route.getLast? = some y →
          let foreign (a : Addr) : Prop := a ∈ truckAddrs ms ∧ s.usage a ≠ .free ∧ a ∉ truckAddrs (s.members c)
          let drops := s.map.isBay x = false ∧ trailerCount ms < trailerCount (s.members c)
          let length := convoyLength ms (s.convoy c).params.standGap
          let room := min (s.sectionRec x).length (s.sectionRec y).length
          ((∃ a, foreign a) ∨ drops → refusal .badState [])
          ∧ ((∀ a, ¬ foreign a) → ¬ drops → room < length → refusal .tooShort (twoBytes length ++ twoBytes room)))

/-- DISBAND (R63, R50, R53, R89): BAD_STATE outside STANDING, ARRIVED and STOPPED; else what the convoy itself has goes,
whoever waits for its road; where nobody waits for it, every section and group it holds is back at rest and no other
road has changed. -/
def Obligations.DisbandGivesEverythingBack : Prop :=
  ∀ (s : State) (p : Port) (tag b : Byte) (c : Conv), Commands s p b c →
    ((s.convoy c).state ∉ [ConvoyState.standing, .arrived, .stopped] →
      exec (.disband p tag [b]) s = .next (s.replied p (s.lastAfter p b c) 0x94 tag .badState []))
    ∧ (MembersActive s → QueuesAgree s → (s.convoy c).state ∈ [ConvoyState.standing, .arrived, .stopped] →
    ∃ t, exec (.disband p tag [b]) s = .next t
      ∧ t.convoy c = (match (s.convoy c).owner with
        | some _ => { s.convoy c with state := .unformed, members := [], fault := none, resume := none }
        | none => ⟨none, .unformed, [], ⟨40, 8, 2, 4, 2, 15⟩, ⟨1000, 2000, 6000⟩, none, none⟩)
      ∧ t.road c = ⟨[], .idle, .idle⟩ ∧ t.track c = ⟨0, 0, [], false, []⟩
      ∧ (∀ a ∈ truckAddrs (s.members c), Retired s t c a)
      ∧ (∀ a, a ∉ truckAddrs (s.members c) → t.usage a = s.usage a)
      ∧ (∀ q, t.auxQueue q = (s.auxQueue q).filter fun e => decide (e.addr ∉ truckAddrs (s.members c)))
      ∧ t.rds.period = refreshPeriod s.map.settings.refresh t.activeTrucks.length
      ∧ KeepsAllBut s t roadBlocks
      ∧ Answers s t p (s.lastAfter p b c) 0x94 tag .ok (t.shortPayload c)
      ∧ (NobodyWaits s (s.everythingOf c) →
        (∀ x, (t.sec x).stock = if s.headSec? c = some x ∧ (s.track c).tail = (s.track c).head ∧ s.map.isBay x = true
            then min ((s.sec x).stock + trailerCount (s.members c)) 8 else (s.sec x).stock)
        ∧ (∀ x, GivenBack s c (s.everythingOf c) x →
          (t.sec x).dyn = if s.map.isBay x = true ∧ 0 < (t.sec x).stock then .parked else .free)
        ∧ (∀ x, ¬ GivenBack s c (s.everythingOf c) x → (t.sec x).dyn = (s.sec x).dyn)
        ∧ (∀ g, (t.grp g).holder = if (s.grp g).holder = some c then none else (s.grp g).holder)
        ∧ (∀ r, t.queue r = s.queueWithout c r)
        ∧ KeepsOtherTrucks s t (truckAddrs (s.members c)) ∧ KeepsOtherConvoys s t c))

/-- SET_PARAMS (R64, R65, R119): the nine values are brought into order and stored; CLAMPED names those that differ from
what was sent; every set speed above the new Vmax is lowered, and the leader target applied. A body that does not hold
the twelve bytes of the nine values is BAD_ARG (R151). -/
def Obligations.SetParamsStoresTheValuesInOrder : Prop :=
  (∀ (s : State) (p : Port) (tag b : Byte) (rest : List Byte) (c : Conv), Commands s p b c → rest.length ≠ 12 →
    exec (.setParams p tag (b :: rest)) s = .next (s.replied p (s.lastAfter p b c) 0x95 tag .badArg []))
  ∧ ∀ (s : State) (p : Port) (tag b : Byte) (rest : List Byte) (c : Conv) (vmax kp aacc adec look gap tg tlag tlost : Nat),
    Commands s p b c → paramValues rest = some [vmax, kp, aacc, adec, look, gap, tg, tlag, tlost] →
    let tg' := min (max tg 200) 5000
    let tlag' := if min (max tlag 300) 15000 ≤ tg' then tg' + 100 else min (max tlag 300) 15000
    let tlost' := if min (max tlost 500) 20000 ≤ tlag' then tlag' + 100 else min (max tlost 500) 20000
    let held : Params := ⟨min (max vmax 1) 63, min (max kp 0) 31, min (max aacc 1) 8, min (max adec 1) 16,
      min (max look 1) 4, min (max gap 5) 50⟩
    let mask := differMask 0 [vmax, kp, aacc, adec, look, gap, tg, tlag, tlost]
      [held.vmax, held.kp, held.aacc, held.adec, held.look, held.standGap, tg', tlag', tlost']
    ((s.convoy c).owner = none → (s.convoy c).state = .unformed →
      exec (.setParams p tag (b :: rest)) s = .next (s.replied p (s.lastAfter p b c) 0x95 tag .badState []))
    ∧ ((s.convoy c).owner ≠ none ∨ (s.convoy c).state ≠ .unformed → ∃ t, exec (.setParams p tag (b :: rest)) s = .next t
      ∧ t.convoy c = { s.convoy c with params := held, thr := ⟨tg', tlag', tlost'⟩ }
      ∧ tg' < tlag' ∧ tlag' < tlost'
      ∧ (∀ a ∈ truckAddrs (s.members c), s.leader? c ≠ some a →
        t.speed a = ⟨min (s.speed a).set held.vmax, (s.speed a).cmd⟩ ∧ t.radio a = s.radio a)
      ∧ (∀ a, s.leader? c = some a →
        if s.formed c then Targeted s t a (t.leaderTarget c (s.convoy c).state)
        else t.speed a = ⟨min (s.speed a).set held.vmax, (s.speed a).cmd⟩ ∧ t.radio a = s.radio a)
      ∧ KeepsOtherTrucks s t (truckAddrs (s.members c)) ∧ (∀ d, d ≠ c → t.convoy d = s.convoy d)
      ∧ t.cvt.trucks = s.cvt.trucks ∧ t.rds = { s.rds with trucks := t.rds.trucks }
      ∧ KeepsAllBut s t [.convoyTable, .governor, .dispatcher, .consolePorts]
      ∧ t.ports = (s.ports.put p ((s.port p).after (s.lastAfter p b c) 0x95 tag (if mask = 0 then .ok else .clamped)
        (t.shortPayload c ++ twoBytes mask ++ (t.convoy c).paramBytes))).map PortState.look)

/-- HOLD (R66, R110, R117): a ROLLING, WAITING or ARRIVING convoy becomes HELD, every truck of it is hard-stopped, and
every follower unit is DOWN; its road and requests stay. In any other state, HELD included, BAD_STATE. -/
def Obligations.HoldFreezesTheConvoy : Prop :=
  ∀ (s : State) (p : Port) (tag b : Byte) (c : Conv), Commands s p b c →
    ((s.convoy c).state ∉ [ConvoyState.rolling, .waiting, .arriving] →
      exec (.hold p tag [b]) s = .next (s.replied p (s.lastAfter p b c) 0x96 tag .badState []))
    ∧ ((s.convoy c).state ∈ [ConvoyState.rolling, .waiting, .arriving] → ∃ t, exec (.hold p tag [b]) s = .next t
      ∧ t.convoy c = { s.convoy c with
          state := .held, resume := if (s.convoy c).state = .arriving then some .arriving else some .rolling }
      ∧ (∀ a ∈ truckAddrs (s.members c), HardStopped s t a) ∧ KeepsOtherTrucks s t (truckAddrs (s.members c))
      ∧ t.track c = { s.track c with units := s.allDown c } ∧ KeepsOtherConvoys s t c
      ∧ t.cvt.trucks = s.cvt.trucks ∧ t.rds = { s.rds with trucks := t.rds.trucks }
      ∧ KeepsAllBut s t [.convoyTable, .tracker, .governor, .dispatcher, .consolePorts]
      ∧ t.ports = (s.ports.put p ((s.port p).after (s.lastAfter p b c) 0x96 tag .ok (t.shortPayload c))).map PortState.look)

/-- UNHOLD (R67, R77, R109): refused unless HELD and not HALTED. The convoy makes its request for road, if it wants any.
Resuming to ROLLING, the leader takes its target, and the convoy is WAITING exactly when that is 0; resuming to ARRIVING,
it is ARRIVED exactly when its tail equals its head. The units are set by the resulting state. The order of these steps
is the model's (notes/assumptions/15.md); so is that into WAITING the units follow step 3 of R109, which stops no truck,
for the stand-down that R67 names (notes/assumptions/34.md). -/
def Obligations.UnholdResumesTheConvoy : Prop :=
  ∀ (s : State) (p : Port) (tag b : Byte) (c : Conv), Commands s p b c →
    ((s.convoy c).state ≠ .held ∨ s.hls.halted = true →
      exec (.unhold p tag [b]) s = .next (s.replied p (s.lastAfter p b c) 0x97 tag .badState []))
    ∧ ((s.convoy c).state = .held → s.hls.halted = false → ∃ t, exec (.unhold p tag [b]) s = .next t
      ∧ ((s.convoy c).resume = some .arriving → t.convoy c = { s.convoy c with
          resume := none, state := if (s.track c).tail = (s.track c).head then .arrived else .arriving })
      ∧ ((s.convoy c).resume = some .rolling → t.convoy c = { s.convoy c with
          resume := none, state := if t.leaderTarget c .rolling = 0 then .waiting else .rolling }
        ∧ ((truckAddrs (s.members c)).Nodup → ∀ a, s.leader? c = some a →
          (t.speed a).set = t.leaderTarget c .rolling ∧ (t.leaderTarget c .rolling = 0 → (t.speed a).cmd = 0))
        ∧ (MembersActive s → (truckAddrs (s.members c)).Nodup → UnitsRestarted s t c (t.convoy c).state))
      ∧ (MembersActive s → (truckAddrs (s.members c)).Nodup → (s.convoy c).resume = some .arriving →
        (s.track c).tail ≠ (s.track c).head → UnitsRestarted s t c .arriving)
      ∧ Requested s t c
      ∧ (t.road c).route = (s.road c).route ∧ (t.track c) = { s.track c with units := (t.track c).units }
      ∧ t.cvt.trucks = s.cvt.trucks ∧ KeepsAllBut s t roadBlocks
      ∧ Answers s t p (s.lastAfter p b c) 0x97 tag .ok (t.shortPayload c))

/-- CLEAR_FAULT (R68, R90, R98, R112): the convoy is STANDING without its fault, its route cut to its occupied run, its
queue entry withdrawn and its watch ended, its records renumbered and timed anew; where nobody waits for its road
ahead, that road is at rest and no other has changed. That a group named behind the tail and beyond the head is occupied,
and so no road ahead, is the model's choice (notes/assumptions/36.md). -/
def Obligations.ClearFaultCutsTheRoute : Prop :=
  ∀ (s : State) (p : Port) (tag b : Byte) (c : Conv), Commands s p b c →
    ((s.convoy c).state ≠ .stopped →
      exec (.clearFault p tag [b]) s = .next (s.replied p (s.lastAfter p b c) 0x98 tag .badState []))
    ∧ ((s.convoy c).state = .stopped → (∀ f, (s.convoy c).fault = some f → f.kind ≠ .lost) → s.level p ≠ 0 →
      exec (.clearFault p tag [b]) s = .next (s.replied p (s.lastAfter p b c) 0x98 tag .notPermitted []))
    ∧ ((s.convoy c).state = .stopped → QueuesAgree s →
      ((∃ f, (s.convoy c).fault = some f ∧ f.kind = .lost) ∨ s.level p = 0) → ∃ t, exec (.clearFault p tag [b]) s = .next t
      ∧ t.convoy c = { s.convoy c with fault := none, state := .standing }
      ∧ t.road c = ⟨((s.road c).route.take ((s.track c).head + 1)).drop (s.track c).tail, .idle, .idle⟩
      ∧ t.track c = { s.track c with
          head := (s.track c).head - (s.track c).tail, tail := 0
          records := (s.track c).records.map fun r =>
            if r.n < s.memberCount c then ⟨r.j - (s.track c).tail, r.n, 0, true, (s.convoy c).thr, false⟩
            else { r with j := r.j - (s.track c).tail } }
      ∧ t.cvt.trucks = s.cvt.trucks ∧ KeepsAllBut s t roadBlocks
      ∧ Answers s t p (s.lastAfter p b c) 0x98 tag .ok (t.shortPayload c)
      ∧ (NobodyWaits s (s.aheadOf c) →
        (∀ x, t.sec x = ⟨if GivenBack s c (s.aheadOf c) x then s.restState x else (s.sec x).dyn, (s.sec x).stock,
            s.queueWithout c (.sec x)⟩)
        ∧ (∀ g, t.grp g = ⟨if .grp g ∈ s.aheadOf c then none else (s.grp g).holder, s.queueWithout c (.grp g)⟩)
        ∧ KeepsOtherConvoys s t c ∧ t.hwg = s.hwg ∧ t.rds = s.rds))

/-! ### Routes and road -/

/-- SET_ROUTE's checks (R74). A list fails as a route at the first entry that departs from the occupied run, repeats an
entry, is no successor of the entry before it, or follows a FORK as a FORK; then at the length of the run when nothing
lies beyond it, and at its last entry when that has no brake detector, the lower index of the two. The checks are made in order; a request that
passes them is accepted. -/
def Obligations.SetRouteChecksTheRoute : Prop :=
  (∀ (m : LayoutMap) (run l : List Sec),
    let fails (i : Nat) : Prop := ∃ x, l[i]? = some x ∧ ((i < run.length ∧ run[i]? ≠ some x) ∨ x ∈ l.take i
      ∨ ∃ y, 1 ≤ i ∧ l[i - 1]? = some y
        ∧ (((m.sections.nth y).succ0 ≠ some x.1 ∧ (m.sections.nth y).succ1 ≠ some x.1)
          ∨ ((m.sections.nth y).kind = .fork ∧ (m.sections.nth x).kind = .fork)))
    (∀ i, fails i → (∀ j, j < i → ¬ fails j) → m.routeFails run l = some i)
    ∧ ((∀ i, ¬ fails i) → ∀ x, l.getLast? = some x → (m.sections.nth x).brake = none →
      m.routeFails run l = some (l.length - 1))
    ∧ ((∀ i, ¬ fails i) → (∀ x, l.getLast? = some x → (m.sections.nth x).brake ≠ none) →
      m.routeFails run l = if l.length ≤ run.length then some run.length else none))
  ∧ ∀ (s : State) (p : Port) (tag b : Byte) (rest : List Byte) (c : Conv), Serves s p → s.named p b = some c →
    let refusal (code : ReplyCode) (detail : List Byte) : Prop :=
      exec (.setRoute p tag (b :: rest)) s = .next (s.replied p (s.lastAfter p b c) 0xA0 tag code detail)
    (s.owns p c = false → refusal .notOwner [])
    ∧ (s.owns p c = true → (routeArg rest = none → refusal .badArg [])
      ∧ ∀ l x, routeArg rest = some l → l.getLast? = some x →
        let length := convoyLength (s.members c) (s.convoy c).params.standGap
        ((s.convoy c).state ∉ [ConvoyState.standing, .waiting, .arrived] → refusal .badState [])
        ∧ ((s.convoy c).state ∈ [ConvoyState.standing, .waiting, .arrived] →
          (∀ i, s.map.routeFails (s.occupiedRun c) l = some i → refusal .routeInvalid [byte i])
          ∧ (s.map.routeFails (s.occupiedRun c) l = none →
            ((s.sectionRec x).length < length →
              refusal .tooShort (twoBytes length ++ twoBytes (s.sectionRec x).length))
            ∧ (length ≤ (s.sectionRec x).length → ∃ t, exec (.setRoute p tag (b :: rest)) s = .next t
              ∧ Answers s t p (s.lastAfter p b c) 0xA0 tag .ok (t.shortPayload c)))))

/-- SET_ROUTE accepted (R75, R83, R98, R113), in two parts. The state `v` before any scan or request: `n` being the
parting point, the lowest index beyond the head at which the old route and the new, both from the tail, differ or one
ends, what the convoy holds at or beyond `n` is at rest, and each group that no new entry below `n` names; the watch on
a FORK at n − 1 or beyond is ended, another is shifted, and the watch is evaluated; the Tracker's indices are shifted;
each truck takes its branch bit. Then, in `t`: the entry in a queue stays in its place where the new route wants the same
resource within the lookahead, and is withdrawn otherwise; a refusal is cleared; ARRIVED becomes STANDING; and a WAITING
convoy without an entry makes its request. Where others wait for what was released, scans of it may grant it. -/
def Obligations.SetRouteReplacesTheRoute : Prop :=
  ∀ (s : State) (p : Port) (tag b : Byte) (rest : List Byte) (c : Conv) (l : List Sec) (x : Sec) (n : Nat),
    Serves s p → s.named p b = some c → s.owns p c = true → routeArg rest = some l → l.getLast? = some x →
    (s.convoy c).state ∈ [ConvoyState.standing, .waiting, .arrived] →
    s.map.routeFails (s.occupiedRun c) l = none →
    convoyLength (s.members c) (s.convoy c).params.standGap ≤ (s.sectionRec x).length →
    let tail := (s.track c).tail
    let head := (s.track c).head - tail
    let old := (s.road c).route.drop tail
    head < n → (∀ i, head < i → i < n → ∃ y, old[i]? = some y ∧ l[i]? = some y) →
    (old[n]? = none ∨ l[n]? = none ∨ old[n]? ≠ l[n]?) →
    let gone := ((old.drop n).filter (s.holdsAlone c)).map Resource.sec
      ++ ((s.heldGroups c).filter fun g => !(l.take n).any fun y => (s.sectionRec y).group == some g).map Resource.grp
    let kept (m : Nat) (w : Watch) : Watch := if n ≤ m - tail + 1 then .idle else w
    let shifted : Watch := match (s.road c).watch with
      | .idle => .idle
      | .awaiting m => kept m (.awaiting (m - tail))
      | .settling m left => kept m (.settling (m - tail) left)
      | .effective m => kept m (.effective (m - tail))
    let v := s.installRoute c l gone n
    ((∀ y, v.sec y = { s.sec y with dyn := if GivenBack s c gone y then s.restState y else (s.sec y).dyn })
      ∧ (∀ g, v.grp g = { s.grp g with holder := if .grp g ∈ gone then none else (s.grp g).holder })
      ∧ v.road c = ⟨l, (s.road c).req, match v.watchable c with
          | some m => if shifted.index? = some m then shifted else .awaiting m
          | none => shifted⟩
      ∧ v.track c = { s.track c with
          head := head, tail := 0, records := (s.track c).records.map fun r => { r with j := r.j - tail } }
      ∧ ((truckAddrs (s.members c)).Nodup → ∀ w ∈ s.unitsFor c,
        (v.radio w.truck).branch = (v.branchFor c ((v.track c).position w.first)).getD (s.radio w.truck).branch)
      ∧ KeepsOtherConvoys s v c ∧ v.convoy c = s.convoy c ∧ KeepsAllBut s v [.interlock, .tracker, .dispatcher])
    ∧ (∀ r k y, v.keptEntry c = some (r, k, y) ↔ (s.road c).req = .queued r ∧ v.nextIndex c = some (k, y)
      ∧ s.map.resourceOf y = r ∧ k ≤ head + (s.convoy c).params.look)
    ∧ ∃ t, exec (.setRoute p tag (b :: rest)) s = .next t
      ∧ (t.road c).route = l
      ∧ t.track c = { v.track c with units := (t.track c).units }
      ∧ ((s.convoy c).state = .waiting → t.convoy c = s.convoy c ∨ t.convoy c = { s.convoy c with state := .rolling })
      ∧ ((s.convoy c).state ≠ .waiting → t.convoy c = { s.convoy c with state := .standing }
        ∧ (t.track c).units = (s.track c).units)
      ∧ t.cvt.trucks = s.cvt.trucks ∧ KeepsAllBut s t roadBlocks
      ∧ (NobodyWaits s gone →
        (∀ r k y, v.keptEntry c = some (r, k, y) →
          let w := v.modQueue r fun q => q.map fun e => if e.conv = c then { e with sec := y, index := k } else e
          ((∀ e, ¬ w.firstEligible r e) → (t.road c).req = .queued r ∧ ∀ z, t.queue z = w.queue z)
          ∧ ∀ e, w.firstEligible r e → t.heldWhole e.conv r)
        ∧ (v.keptEntry c = none →
          ((s.convoy c).state ≠ .waiting → t.road c = { v.road c with req := .idle }
            ∧ (∀ z, t.queue z = s.queueWithout c z) ∧ ∀ y, (t.sec y).dyn = (v.sec y).dyn)
          ∧ ((s.convoy c).state = .waiting → Requested (v.withdraw c) t c)))

/-- START (R76, R77, R109, R113, R122, R123): a STANDING convoy with a route beyond its head becomes ROLLING and makes its
request for road, if it wants any; each truck's branch bit is the choice for the first FORK at or beyond its position,
the leader takes its target, and DOWN units await their restart. -/
def Obligations.StartSetsTheConvoyRolling : Prop :=
  ∀ (s : State) (p : Port) (tag b : Byte) (c : Conv), Commands s p b c →
    ((s.convoy c).state ≠ .standing ∨ (s.road c).route.length ≤ (s.track c).head + 1 ∨ s.hls.halted = true →
      exec (.start p tag [b]) s = .next (s.replied p (s.lastAfter p b c) 0xA1 tag .badState []))
    ∧ ((s.convoy c).state = .standing → (s.track c).head + 1 < (s.road c).route.length → s.hls.halted = false →
      ∃ t, exec (.start p tag [b]) s = .next t
      ∧ t.convoy c = { s.convoy c with state := .rolling } ∧ (t.road c).route = (s.road c).route
      ∧ Requested (s.modConvoy c fun v => { v with state := .rolling }) t c
      ∧ t.track c = { s.track c with units := (t.track c).units }
      ∧ (∀ u, 1 ≤ u → u < unitCount (s.members c) → t.unitState? c u = (s.unitState? c u).map fun
          | .downPending => .run
          | .down => .startPending
          | .run => .run
          | .startPending => .startPending)
      ∧ (∀ a, s.leader? c = some a → (t.speed a).set = t.leaderTarget c .rolling)
      ∧ ((truckAddrs (s.members c)).Nodup → ∀ w ∈ s.unitsFor c,
        (t.radio w.truck).branch = (s.branchFor c ((s.track c).position w.first)).getD (s.radio w.truck).branch)
      ∧ t.cvt.trucks = s.cvt.trucks ∧ KeepsAllBut s t roadBlocks
      ∧ Answers s t p (s.lastAfter p b c) 0xA1 tag .ok (t.shortPayload c))

/-- R77 to R79: the request a convoy wants is for the first section beyond its head that it does not hold, within its
lookahead; the chain of waits closes exactly when holders lead back to it within 12 convoys; and an entry joins behind
every entry of a lower or equal level, ahead of the others. -/
def Obligations.RequestsForRoadAreChosenCheckedAndQueued : Prop :=
  ∀ (s : State) (c : Conv),
    (∀ k x, s.wanted c = some (k, x) ↔
      (s.convoy c).state ∈ [ConvoyState.rolling, .waiting, .held] ∧ (s.road c).req = .idle ∧ (s.track c).head < k
      ∧ k ≤ (s.track c).head + (s.convoy c).params.look ∧ (s.road c).route[k]? = some x ∧ s.secHolder x ≠ some c
      ∧ ∀ j, (s.track c).head < j → j < k → ∃ y, (s.road c).route[j]? = some y ∧ s.secHolder y = some c)
    ∧ (∀ r, s.chainCloses c chainLimit r = true ↔
      ∃ l, l.length ≤ 12 ∧ s.waitsAlong r l ∧ l.getLast? = some c)
    ∧ ∀ (e : Entry) (q : List Entry), insertEntry e q
      = q.takeWhile (fun f => decide (f.level ≤ e.level)) ++ e :: q.dropWhile (fun f => decide (f.level ≤ e.level))

/-- RETRY (R79): a REFUSED convoy makes its request anew; it may be refused again, join a queue, or be granted road at
once. -/
def Obligations.RetryRenewsTheRequest : Prop :=
  ∀ (s : State) (p : Port) (tag b : Byte) (c : Conv), Commands s p b c →
    let u := s.modRoad c fun w => { w with req := .idle }
    ((s.road c).req ≠ .refused →
      exec (.retry p tag [b]) s = .next (s.replied p (s.lastAfter p b c) 0xA2 tag .badState []))
    ∧ ((s.road c).req = .refused →
      (u.wanted c = none →
        exec (.retry p tag [b]) s = .next (u.replied p (s.lastAfter p b c) 0xA2 tag .ok (s.shortPayload c)))
      ∧ ∀ k x, u.wanted c = some (k, x) →
        let r := s.map.resourceOf x
        let v := u.join c k x r
        (u.chainCloses c chainLimit r = true → ∃ t, exec (.retry p tag [b]) s = .next t
          ∧ KeepsAllBut s t [.consolePorts]
          ∧ (∀ q, t.port q = (s.told (.ownerOf c)
              ⟨.deadlock, some c, some x, none, none, (s.holder r).elim 0 convoyNumber⟩ q
              (if q = p then (s.port p).after (s.lastAfter p b c) 0xA2 tag .ok (s.shortPayload c)
                else s.port q)).look))
        ∧ (u.chainCloses c chainLimit r = false → (∀ e, ¬ v.firstEligible r e) →
          exec (.retry p tag [b]) s = .next (v.replied p (s.lastAfter p b c) 0xA2 tag .ok (s.shortPayload c)))
        ∧ (u.chainCloses c chainLimit r = false → ∀ e, v.firstEligible r e → ∃ t, exec (.retry p tag [b]) s = .next t
          ∧ t.heldWhole e.conv r ∧ KeepsAllBut s t roadBlocks
          ∧ Answers s t p (s.lastAfter p b c) 0xA2 tag .ok (t.shortPayload c)))

/-- R80 to R82: a grant scan grants the resource to the first entry it is grantable to, and nothing where there is none
or while the part is HALTED. At the grant the entry leaves its queue and its convoy's request is IDLE, the resource is
held whole, the fork watch is evaluated, and where the next section is held and effective the Governor is told, so that
the leader takes its target, and a WAITING convoy with a target above 0 is ROLLING; then the convoy makes its next
request. -/
def Obligations.GrantScansGrantTheFirstEligibleEntry : Prop :=
  ∀ (s : State) (r : Resource),
    ((∀ e, ¬ s.firstEligible r e) → s.scan r = s)
    ∧ (∀ e, s.firstEligible r e → (truckAddrs (s.members e.conv)).Nodup →
      let c := e.conv
      let v := s.grantTo r e
      s.scan r = v.request c
      ∧ (∀ y, v.queue y = if y = r then (s.queue r).filter (fun f => f.conv != c) else s.queue y)
      ∧ v.heldWhole c r
      ∧ (∀ x, (r = .sec x ∨ ∃ g, r = .grp g ∧ x ∈ s.map.listed g) ∨ v.sec x = s.sec x)
      ∧ v.road c = ⟨(s.road c).route, .idle, match v.watchable c with
          | some m => if (s.road c).watch.index? = some m then (s.road c).watch else .awaiting m
          | none => (s.road c).watch⟩
      ∧ v.raised = s.raised ++ [⟨⟨.granted, some c, some e.sec, none, none, 0⟩, s.recipients (.ownerOf c)⟩]
      ∧ (v.nextEffective c = false → v.convoy c = s.convoy c ∧ v.hwg = s.hwg ∧ v.track c = s.track c)
      ∧ (v.nextEffective c = true → s.formed c = true →
        v.convoy c = { s.convoy c with state :=
          if (s.convoy c).state = .waiting ∧ 0 < v.leaderTarget c .waiting then .rolling else (s.convoy c).state }
        ∧ (∀ a, s.leader? c = some a → (v.speed a).set = v.leaderTarget c (s.convoy c).state)
        ∧ ((s.convoy c).state = .waiting → UnitsRestarted s v c (v.convoy c).state))
      ∧ KeepsOtherConvoys s v c ∧ KeepsOtherTrucks s v (truckAddrs (s.members c))
      ∧ KeepsAllBut s v [.convoyTable, .interlock, .tracker, .governor, .dispatcher])
    ∧ (∀ x e, s.eligible (.sec x) e = true ↔ (s.sec x).dyn = .free
      ∨ (s.sec x).dyn = .parked ∧ e.index + 1 = (s.road e.conv).route.length)
    ∧ ∀ g e, s.eligible (.grp g) e = true ↔ (s.grp g).holder = none ∧ s.map.groupList g ≠ []
      ∧ (∀ n ∈ s.map.groupList g, ∃ x : Sec, x.1 = n ∧ (s.sec x).dyn = .free) ∧ e.sec.1 ∈ s.map.groupList g

/-- UNBAR (R92), CLEAR_SECTION (R93) and CLEARANCE_TIMER_EXPIRY (R88): the section becomes FREE, or PARKED by its
stock, and a grant scan follows of it or of its group. Each does nothing to a section in another state; a body without
one section is BAD_ARG (R151). That the event takes place when the timer has run out is the model's choice
(notes/assumptions/10.md). -/
def Obligations.RoadThatBecomesAvailableIsScanned : Prop :=
  (∀ (s : State) (p : Port) (tag : Byte) (body : List Byte), Serves s p → s.level p = 0 →
    (∀ b, body = [b] → 47 < b.toNat) →
    exec (.unbar p tag body) s = .next (s.replied p (s.port p).lastConvoy 0xA4 tag .badArg [])
    ∧ exec (.clearSection p tag body) s = .next (s.replied p (s.port p).lastConvoy 0xA5 tag .badArg []))
  ∧ ∀ (s : State) (x : Sec),
    let r := s.map.resourceOf x
    let rested (u : State) : State := u.modSec x fun q =>
      { q with dyn := if u.map.isBay x = true ∧ 0 < q.stock then .parked else .free }
    (∀ (p : Port) (tag : Byte) (body : List Byte), Serves s p → s.level p = 0 → onlySection body = some x →
      let clear := s.setMap { s.map with sections := s.map.sections.put x { s.sectionRec x with barred := false } }
      ((s.sec x).dyn ≠ .barred →
        exec (.unbar p tag body) s = .next (s.replied p (s.port p).lastConvoy 0xA4 tag .badState []))
      ∧ (∀ n o, (s.sec x).dyn = .barred → s.map.singleCheck x = some (n, o) →
        exec (.unbar p tag body) s = .next (s.replied p (s.port p).lastConvoy 0xA4 tag .badArg
          [byte n, (match o with | some y => byte y.1 | none => 0xFF)]))
      ∧ ((s.sec x).dyn = .barred → s.map.singleCheck x = none →
        ((∀ e, ¬ (rested clear).firstEligible r e) →
          exec (.unbar p tag body) s = .next ((rested clear).replied p (s.port p).lastConvoy 0xA4 tag .ok []))
        ∧ ∀ e, (rested clear).firstEligible r e → ∃ t, exec (.unbar p tag body) s = .next t
          ∧ t.heldWhole e.conv r ∧ KeepsAllBut clear t roadBlocks
          ∧ Answers s t p (s.port p).lastConvoy 0xA4 tag .ok [])
      ∧ ((s.sec x).dyn ≠ .blocked →
        exec (.clearSection p tag body) s = .next (s.replied p (s.port p).lastConvoy 0xA5 tag .badState []))
      ∧ ((s.sec x).dyn = .blocked →
        ((∀ e, ¬ (rested s).firstEligible r e) →
          exec (.clearSection p tag body) s = .next ((rested s).replied p (s.port p).lastConvoy 0xA5 tag .ok []))
        ∧ ∀ e, (rested s).firstEligible r e → ∃ t, exec (.clearSection p tag body) s = .next t
          ∧ t.heldWhole e.conv r ∧ KeepsAllBut s t roadBlocks
          ∧ Answers s t p (s.port p).lastConvoy 0xA5 tag .ok []))
    ∧ ((∀ ms, (s.sec x).dyn ≠ .clearing ms) → exec (.clearanceTimerExpiry x) s = .next s)
    ∧ (∀ ms, s.raised = [] → s.running = true → (s.sec x).dyn = .clearing ms →
      let u := rested (s.advance ms)
      ((∀ e, ¬ u.firstEligible r e) →
        exec (.clearanceTimerExpiry x) s = .next (State.looked { u with eventNo := s.eventNo + 1 }))
      ∧ ∀ e, u.firstEligible r e → ∃ t, exec (.clearanceTimerExpiry x) s = .next t
        ∧ t.heldWhole e.conv r ∧ KeepsAllBut (s.advance ms) t roadBlocks ∧ KeepsPorts (s.advance ms) t)

/-- BAR (R91, R2) sets the bar flag of a FREE, PARKED or BLOCKED section on no formed convoy's route, which keeps its
stock; SET_STOCK (R94) sets the stock of a BAY, clamped to 8, and moves an unheld one in service between FREE and
PARKED, with a scan when it becomes FREE. Anything else is refused. -/
def Obligations.BarAndSetStockSetTheSection : Prop :=
  ∀ (s : State) (p : Port) (tag : Byte) (body : List Byte), Serves s p → s.level p = 0 →
    (onlySection body = none →
      exec (.bar p tag body) s = .next (s.replied p (s.port p).lastConvoy 0xA3 tag .badArg []))
    ∧ (∀ x, onlySection body = some x →
      if (s.sec x).dyn ∈ [SecState.free, .parked, .blocked] ∧ (∀ c, s.formed c = true → x ∉ (s.road c).route) then
        exec (.bar p tag body) s = .next (((s.setMap { s.map with
            sections := s.map.sections.put x { s.sectionRec x with barred := true } }).modSec x fun q =>
            { q with dyn := .barred }).replied p (s.port p).lastConvoy 0xA3 tag .ok [])
      else exec (.bar p tag body) s = .next (s.replied p (s.port p).lastConvoy 0xA3 tag .badState []))
    ∧ ((stockArg body = none ∨ ∃ x n, stockArg body = some (x, n) ∧ s.map.isBay x = false) →
      exec (.setStock p tag body) s = .next (s.replied p (s.port p).lastConvoy 0xA6 tag .badArg []))
    ∧ ∀ x n, stockArg body = some (x, n) → s.map.isBay x = true →
      let emptied := s.modSec x fun q => ⟨.free, 0, q.queue⟩
      ((s.sec x).dyn ≠ .parked ∨ n ≠ 0 → exec (.setStock p tag body) s
        = .next ((s.modSec x fun q => ⟨if q.dyn = .free ∧ n ≠ 0 then .parked else q.dyn, min n 8, q.queue⟩).replied p
          (s.port p).lastConvoy 0xA6 tag .ok [byte (min n 8)]))
      ∧ ((s.sec x).dyn = .parked → n = 0 →
        ((∀ e, ¬ emptied.firstEligible (s.map.resourceOf x) e) →
          exec (.setStock p tag body) s = .next (emptied.replied p (s.port p).lastConvoy 0xA6 tag .ok [0]))
        ∧ ∀ e, emptied.firstEligible (s.map.resourceOf x) e → ∃ t, exec (.setStock p tag body) s = .next t
          ∧ t.heldWhole e.conv (s.map.resourceOf x) ∧ KeepsAllBut s t roadBlocks
          ∧ Answers s t p (s.port p).lastConvoy 0xA6 tag .ok [0])

/-! ### Requests to the whole part -/

/-- AUX (R140, R141): the five checks in order; on acceptance the entry joins the back of the port's aux queue, and the
reply carries how many it holds. -/
def Obligations.AuxRequestsJoinThePortsQueue : Prop :=
  ∀ (s : State) (p : Port) (tag : Byte) (body : List Byte), Serves s p →
    let refusal (code : ReplyCode) : Prop :=
      exec (.aux p tag body) s = .next (s.replied p (s.port p).lastConvoy 0xB0 tag code [])
    (auxArg body = none → refusal .badArg)
    ∧ ∀ e, auxArg body = some e →
      ((∀ c, s.usage e.addr = .active c → (s.convoy c).owner ≠ some p) → s.level p ≠ 0 → refusal .notOwner)
      ∧ ((∃ c, s.usage e.addr = .active c ∧ (s.convoy c).owner = some p) ∨ s.level p = 0 →
        if (∀ c, s.usage e.addr ≠ .active c) ∨ (e.coupler = true ∧ (s.speed e.addr).cmd ≠ 0) then refusal .badState
        else if 8 ≤ (s.auxQueue p).length then refusal .queueFull
        else exec (.aux p tag body) s = .next (State.replied { s with
            rds := { s.rds with auxQueues := s.rds.auxQueues.put p (s.auxQueue p ++ [e]) } } p (s.port p).lastConvoy
            0xB0 tag .ok [byte ((s.auxQueue p).length + 1)]))

/-- SET_NOTIFY (R152, R157): the two values are taken and answered, and the standing conditions whose severity is newly
accepted are queued; any other body is BAD_ARG. The standing conditions are WAITING of each WAITING convoy and LOST of each
STOPPED convoy with a LOST fault, where the port would be told of it (R156), and SUPPLY_LOW while the supply is LOW; they
stand in ascending convoy number, SUPPLY_LOW last. -/
def Obligations.SetNotifyTakesTheSettingAndReissues : Prop :=
  ∀ (s : State) (p : Port) (tag : Byte) (body : List Byte), Serves s p →
    ((∀ e l : Byte, body = [e, l] → 1 < e.toNat ∨ 3 < l.toNat) →
      exec (.setNotify p tag body) s = .next (s.replied p (s.port p).lastConvoy 0xB1 tag .badArg []))
    ∧ ∀ e l : Byte, body = [e, l] → e.toNat ≤ 1 → l.toNat ≤ 3 →
      let again := (s.standingFor p).filter fun n =>
        !acceptsSeverity (s.port p).notifyOn (s.port p).notifyLevel n.kind.severity
      exec (.setNotify p tag body) s = .next (State.looked { s with
        eventNo := s.eventNo + 1
        ports := s.ports.put p (again.foldl PortState.notify
          { (s.port p).after (s.port p).lastConvoy 0xB1 tag .ok [e, l] with
            notifyOn := decide (e = 1), notifyLevel := l.toNat }) })
      ∧ (∀ n, n ∈ s.standingFor p ↔
        (∃ c, p ∈ s.recipients (.ownerOf c) ∧
          (((s.convoy c).state = .waiting ∧ n = ⟨.waiting, some c, s.nextSec? c, none, none, 0⟩)
          ∨ ∃ f, (s.convoy c).state = .stopped ∧ (s.convoy c).fault = some f ∧ f.kind = .lost
            ∧ n = ⟨.lost, some c, some f.sec, none, some f.member, 0⟩))
        ∨ s.hls.supplyLow = true ∧ n = ⟨.supplyLow, none, none, none, none, 0⟩)
      ∧ (s.standingFor p).Pairwise fun n m =>
        ∃ c, n.conv = some c ∧ (m.conv = none ∨ ∃ d, m.conv = some d ∧ c < d)

/-- ALL_STOP (R161, R162): accepted at every level and in every halt state; with REQUEST present it changes nothing, else
REQUEST becomes present with a HALTED notice, and a RUNNING part becomes HALTED. -/
def Obligations.AllStopHaltsThePart : Prop :=
  ∀ (s : State) (p : Port) (tag : Byte), Serves s p →
    (∀ body, body ≠ [] →
      exec (.allStop p tag body) s = .next (s.replied p (s.port p).lastConvoy 0xB8 tag .badArg s.haltBytes))
    ∧ (s.hls.request = true →
      exec (.allStop p tag []) s = .next (s.replied p (s.port p).lastConvoy 0xB8 tag .ok s.haltBytes))
    ∧ (s.hls.request = false → ∃ t, exec (.allStop p tag []) s = .next t
      ∧ t.hls = { s.hls with request := true, halted := true }
      ∧ (∀ q, t.port q = (s.told .allPorts ⟨.halted, none, none, none, none, 1⟩ q
          (if q = p then (s.port p).after (s.port p).lastConvoy 0xB8 tag .ok t.haltBytes else s.port q)).look)
      ∧ (s.hls.halted = true → KeepsAllBut s t [.haltSupervisor, .consolePorts])
      ∧ (s.hls.halted = false →
        (∀ a, s.isActive a = true → HardStopped s t a)
        ∧ (∀ a, s.isActive a = false → t.speed a = s.speed a ∧ t.radio a = s.radio a)
        ∧ t.rds = { s.rds with trucks := t.rds.trucks, broadcasts := 3 }
        ∧ (∀ c, t.track c = if s.formed c then { s.track c with units := s.allDown c } else s.track c)
        ∧ KeepsAllBut s t [.tracker, .governor, .dispatcher, .haltSupervisor, .consolePorts]))

/-- RESUME_ALL (R163, R109): BAD_STATE while RUNNING or with CHORD or RADIO present; else the part is RUNNING without
REQUEST, every resource that convoys wait for is scanned once, in some order (R82), and each ROLLING or WAITING convoy
is restarted: its leader takes its target, a WAITING one with a target above 0 is ROLLING, and its units are set by the
resulting state. The order of scans and restarts is that of R163's steps (notes/assumptions/27.md). -/
def Obligations.ResumeAllRestartsTheLayout : Prop :=
  ∀ (s : State) (p : Port) (tag : Byte), Serves s p → s.level p = 0 →
    (∀ body, body ≠ [] →
      exec (.resumeAll p tag body) s = .next (s.replied p (s.port p).lastConvoy 0xB9 tag .badArg s.haltBytes))
    ∧ (s.hls.halted = false ∨ s.hls.chord = true ∨ s.hls.radio = true →
      exec (.resumeAll p tag []) s = .next (s.replied p (s.port p).lastConvoy 0xB9 tag .badState s.haltBytes))
    ∧ (s.hls.halted = true → s.hls.chord = false → s.hls.radio = false → ∃ t, exec (.resumeAll p tag []) s = .next t
      ∧ t.hls = { s.hls with request := false, halted := false } ∧ t.cvt.trucks = s.cvt.trucks
      ∧ KeepsAllBut s t (.haltSupervisor :: roadBlocks)
      ∧ Answers s t p (s.port p).lastConvoy 0xB9 tag .ok t.haltBytes
      ∧ (∃ order, order.Perm (allResources.filter fun r => !(s.queue r).isEmpty)
        ∧ t.sil = (State.forEach { s with hls := t.hls } order State.scan).sil)
      ∧ (NobodyWaits s allResources → MembersActive s → (∀ c, (truckAddrs (s.members c)).Nodup) → t.sil = s.sil
        ∧ (∀ c, t.convoy c = if (s.convoy c).state = .waiting ∧ 0 < t.leaderTarget c .waiting then
            { s.convoy c with state := .rolling } else s.convoy c)
        ∧ (∀ c, (s.convoy c).state ∈ [ConvoyState.rolling, .waiting] →
          (∀ a, s.leader? c = some a → Targeted s t a (t.leaderTarget c (s.convoy c).state))
          ∧ UnitsRestarted s t c (t.convoy c).state)
        ∧ (∀ c, (s.convoy c).state ∉ [ConvoyState.rolling, .waiting] → t.track c = s.track c)
        ∧ (∀ a, (∀ c, (s.convoy c).state ∈ [ConvoyState.rolling, .waiting] → a ∉ truckAddrs (s.members c)) →
          t.speed a = s.speed a ∧ t.radio a = s.radio a)
        ∧ (∀ q, t.port q = (s.told .allPorts ⟨.resumed, none, none, none, none, 0⟩ q
            (if q = p then (s.port p).after (s.port p).lastConvoy 0xB9 tag .ok t.haltBytes else s.port q)).look)))

/-- LAYOUT_RESET (R164, R70, R97, R114, R145, R155): no convoy, route, queue or record is left, every ACTIVE truck
retires, road returns to rest with its stock, three broadcasts are owed; the map, the front end and the supply state
stay, and the halt too while CHORD or RADIO is present. -/
def Obligations.LayoutResetClearsTheLayout : Prop :=
  ∀ (s : State) (p : Port) (tag : Byte), Serves s p → s.level p = 0 →
    (∀ body, body ≠ [] →
      exec (.layoutReset p tag body) s = .next (s.replied p (s.port p).lastConvoy 0xBA tag .badArg s.haltBytes))
    ∧ ∃ t, exec (.layoutReset p tag []) s = .next t
      ∧ (∀ a, match s.usage a with
          | .active c => Retired s t c a
          | u => t.usage a = u ∧ t.speed a = s.speed a ∧ t.radio a = s.radio a)
      ∧ (∀ c, t.convoy c = ⟨none, .unformed, [], ⟨40, 8, 2, 4, 2, 15⟩, ⟨1000, 2000, 6000⟩, none, none⟩
        ∧ t.road c = ⟨[], .idle, .idle⟩ ∧ t.track c = ⟨0, 0, [], false, []⟩)
      ∧ (∀ x, t.sec x = ⟨(match (s.sec x).dyn with
          | .free => .free
          | .parked => .parked
          | .barred => .barred
          | _ => if s.map.isBay x = true ∧ 0 < (s.sec x).stock then .parked else .free), (s.sec x).stock, []⟩)
      ∧ (∀ g, t.grp g = ⟨none, []⟩) ∧ (∀ q, t.auxQueue q = [])
      ∧ t.rds = { s.rds with
          trucks := t.rds.trucks, auxQueues := t.rds.auxQueues, broadcasts := 3, burst := 0, rest := 0
          period := refreshPeriod s.map.settings.refresh 0 }
      ∧ t.hls = (if s.hls.chord || s.hls.radio then s.hls else { s.hls with request := false, halted := false })
      ∧ (∀ q, t.port q = (s.told .allPorts ⟨.layoutReset, none, none, none, none, 0⟩ q
          { (if q = p then (s.port p).after (s.port p).lastConvoy 0xBA tag .ok t.haltBytes else s.port q) with
            lastConvoy := none }).look)
      ∧ KeepsAllBut s t (.haltSupervisor :: roadBlocks)

/-! ### Inputs and passages -/

/-- CHANGE_OF_LOGICAL_LEVEL and CHECK_TIMER_EXPIRY (R34 to R38, R40, R41, R43, R45, R46): the input moves as the
tables give; the chord follows; and the move to ACTIVE of an input that is no chord input joins the seen set of every
attached port. No other move is a passage, and one that leaves the accepted state leaves the ports but for the look of
their transmitters (R154). That the event takes place when the timer has run out is the model's choice
(notes/assumptions/10.md); so is that a change in a held reset or during LOADING, when the input takes no event (R20,
R21), is recorded as the level of the line (notes/assumptions/30.md). -/
def Obligations.InputsAreConditioned : Prop :=
  ∀ (s : State) (d : Inp), s.raised = [] →
    let moved (u t : State) (high : Bool) (next : InputState × Option Nat) : Prop :=
      t.input d = ⟨high, next.1, next.2⟩ ∧ (∀ e, e ≠ d → t.input e = u.input e)
      ∧ t.dfe.chord = t.chordComplete ∧ t.hls.chord = t.dfe.chord
      ∧ (if next.1 = .active ∧ (u.input d).cond.accepted = false ∧ d ∉ chordInputs u.map.settings.chord then
          ∀ q e, e ∈ t.dfe.seen.nth q ↔ e ∈ u.dfe.seen.nth q ∨ e = d ∧ (u.port q).attached = true
        else t.dfe.seen = u.dfe.seen ∧ KeepsPorts u t
          ∧ KeepsAllBut u t [.frontEnd, .tracker, .governor, .dispatcher, .haltSupervisor, .consolePorts]
          ∧ (next.1.accepted = (u.input d).cond.accepted →
            t.ports = u.ports.map PortState.look ∧ KeepsAllBut u t [.frontEnd, .consolePorts]))
    (∀ high, s.running = false →
      exec (.changeOfLogicalLevel d high) s = .next (State.looked { s with
        eventNo := s.eventNo + 1
        dfe := { s.dfe with inputs := s.dfe.inputs.put d { s.input d with high := high } } }))
    ∧ (∀ high, ChordAgrees s → s.running = true → ∃ t, exec (.changeOfLogicalLevel d high) s = .next t
      ∧ moved s t high (if high = (s.input d).high then ((s.input d).cond, (s.input d).timer)
        else levelTable (s.input d).cond (s.input d).timer (high == (s.map.detectors.nth d).activeHigh)
          (s.map.filterCode d == 0)))
    ∧ (s.checkLeft d = none → exec (.checkTimerExpiry d) s = .next s)
    ∧ (∀ ms, ChordAgrees s → s.checkLeft d = some ms → ∃ t, exec (.checkTimerExpiry d) s = .next t
      ∧ moved (s.advance ms) t (s.input d).high (expiryTable (s.input d).cond ((s.advance ms).input d).timer))

/-- R15, R41, R45, R100: an input that becomes ACTIVE delivers its passage by the role of the detector. An entry
passage goes to the section's holder where one of its records expects a member or it is due next, to the one convoy
whose leader was due to enter without having been given the section, or else is a stray; it is then a member crossing, a
leader crossing, an overrun or a stray (R101 to R104). That the event takes place
when the timer has run out is the model's choice (notes/assumptions/10.md). -/
def Obligations.PassagesAreAttributed : Prop :=
  (∀ (s : State) (d : Inp) (high : Bool), s.running = true → (s.input d).cond = .inactive → s.map.filterCode d = 0 →
    (s.input d).high ≠ high → high = (s.map.detectors.nth d).activeHigh →
    exec (.changeOfLogicalLevel d high) s = .next (s.event fun u =>
      ((u.modInput d fun _ => ⟨high, .active, none⟩).updateChord).passage d))
  ∧ (∀ (s : State) (d : Inp) (ms : Nat), (s.input d).cond = .rising → s.checkLeft d = some ms →
    exec (.checkTimerExpiry d) s = .next ((s.advance ms).event fun u =>
      ((u.modInput d fun i => ⟨i.high, .active, none⟩).updateChord).passage d))
  ∧ (∀ (s : State) (d : Inp), (d ∈ chordInputs s.map.settings.chord → s.passage d = s)
    ∧ (d ∉ chordInputs s.map.settings.chord → s.passage d = match s.map.roleOf d with
      | .entry x => (s.addSeen d).entryPassage x d
      | .brake x => (s.addSeen d).brakePassage x
      | .none => s.addSeen d))
  ∧ ∀ (s : State) (x : Sec),
    let claims (c : Conv) : Prop := s.secHolder x = some c ∧
      ((s.expecting? c x).isSome = true ∨ s.nextSec? c = some x)
    let due (c : Conv) : Prop := s.formed c = true ∧ s.nextSec? c = some x ∧ s.secHolder x ≠ some c
    (∀ c r, s.secHolder x = some c → s.expecting? c x = some r → s.attribution x = .member c r)
    ∧ (∀ c, s.secHolder x = some c → s.expecting? c x = none → s.nextSec? c = some x → s.attribution x = .leader c)
    ∧ ((∀ c, ¬ claims c) → (∀ c, due c → (∀ e, due e → e = c) → s.attribution x = .overrun c)
      ∧ ((∀ c, due c → ∃ e, due e ∧ e ≠ c) → s.attribution x = .stray))
    ∧ ∀ d, s.entryPassage x d = match s.attribution x with
      | .member c r => s.memberCrossing c r
      | .leader c => s.leaderCrossing c x
      | .overrun c => s.overrun c x
      | .stray => s.stray x d

/-- A leader crossing of a ROLLING convoy (R77, R99, R102, R107): the head advances with a record of count 1 whose timer
runs for member 1; a single truck takes its tail along; the convoy makes its request for road, if it wants any; and with
no brake detector and no effective next section the convoy is WAITING with its leader stopped, else it goes on at its
target. -/
def Obligations.LeaderCrossingsAdvanceTheHead : Prop :=
  ∀ (s : State) (c : Conv) (x : Sec), (s.convoy c).state = .rolling → (truckAddrs (s.members c)).Nodup →
    s.nextSec? c = some x → (∀ r ∈ (s.track c).records, r.j ≤ (s.track c).head) →
    let t := s.leaderCrossing c x
    (t.track c).head = (s.track c).head + 1 ∧ (t.track c).brakeSeen = false
      ∧ (1 < s.memberCount c → (t.track c).tail = (s.track c).tail ∧ (t.track c).records
        = (s.track c).records ++ [⟨(s.track c).head + 1, 1, 0, true, (s.convoy c).thr, false⟩])
      ∧ (s.memberCount c = 1 → (s.track c).tail = (s.track c).head →
        (t.track c).tail = (s.track c).head + 1 ∧ (t.track c).records = (s.track c).records)
      ∧ t.convoy c = { s.convoy c with
          state := if (s.sectionRec x).brake = none ∧ t.nextEffective c = false then .waiting else .rolling }
      ∧ (∀ a, s.leader? c = some a → (t.convoy c).state = .waiting → t.speed a = ⟨0, 0⟩)
      ∧ (∀ a, s.leader? c = some a → (t.convoy c).state = .rolling → (t.speed a).set = t.leaderTarget c .rolling)
      ∧ (let j := (s.track c).head + 1
        let u := s.modTrack c fun k =>
          { k with
            head := j, brakeSeen := false
            records := k.records ++ [⟨j, 1, 0, decide (1 < s.memberCount c), (s.convoy c).thr, false⟩] }
        Requested (if s.memberCount c = 1 then u.advanceTail c j else u) t c)
      ∧ (t.road c).route = (s.road c).route ∧ t.cvt.trucks = s.cvt.trucks
      ∧ KeepsAllBut s t [.convoyTable, .interlock, .tracker, .governor, .dispatcher]

/-- A member crossing (R86, R87, R99, R101, R107): the count rises, the gap of a follower in RUN sets its speed, the timer
starts anew for the next member; and the last member's crossing next to the tail moves the tail, whose section, or its
group once no later entry names it, is left CLEARING. An ARRIVING convoy whose tail has reached its head is ARRIVED, every
follower unit DOWN; that the trucks of those not DOWN before are hard-stopped is the model's reading
(notes/assumptions/33.md). -/
def Obligations.MemberCrossingsCountAndMoveTheTail : Prop :=
  ∀ (s : State) (c : Conv) (r : Crossing), (truckAddrs (s.members c)).Nodup → (s.track c).record? r.j = some r →
    r.n < s.memberCount c →
    let t := s.memberCrossing c r
    let last := r.n + 1 = s.memberCount c ∧ r.j = (s.track c).tail + 1
    let arrives := last ∧ (s.convoy c).state = .arriving ∧ r.j = (s.track c).head
    (t.track c).head = (s.track c).head ∧ (t.track c).tail = (if last then r.j else (s.track c).tail)
      ∧ (t.track c).record? r.j = (if last then none
        else if r.n + 1 < s.memberCount c then some ⟨r.j, r.n + 1, 0, true, (s.convoy c).thr, false⟩
        else some { r with n := r.n + 1, running := false })
      ∧ (∀ j, j ≠ r.j → (t.track c).record? j = (s.track c).record? j)
      ∧ (∀ a len, 1 ≤ r.n → (s.members c)[r.n]? = some (.truck a len) →
        s.unitState? c (unitIndex (s.members c) r.n) = some .run → ¬ arrives → t.speed a = ⟨if s.hls.halted then 0 else followerSpeed
          r.timer r.thr.tg (s.unitCmd c (unitIndex (s.members c) (r.n - 1))) (s.convoy c).params.kp
          (match s.routeAt c r.j with | some x => s.vcap c x | none => 0), (s.speed a).cmd⟩)
      ∧ t.convoy c = (if arrives then { s.convoy c with state := .arrived } else s.convoy c)
      ∧ (arrives → ∀ u, 1 ≤ u → u < unitCount (s.members c) →
        t.unitState? c u = ((s.unitState? c u).map fun _ => .down)
        ∧ ∀ a, s.unitTruck? c u = some a → s.unitState? c u ≠ some .down → t.speed a = ⟨0, 0⟩)
      ∧ (¬ last → t.sil = s.sil)
      ∧ (last → ∀ x, s.routeAt c (r.j - 1) = some x →
        ((s.sectionRec x).group = none →
          (t.sec x).dyn = if s.holds c x then .clearing (s.map.holdTimeOf x) else (s.sec x).dyn)
        ∧ ∀ g, (s.sectionRec x).group = some g →
          (s.groupAbove c g (r.j - 1) = true ∨ (s.grp g).holder ≠ some c → t.sil = s.sil)
          ∧ (s.groupAbove c g (r.j - 1) = false → (s.grp g).holder = some c → (t.grp g).holder = none
            ∧ ∀ y ∈ s.map.listed g, s.holds c y = true → (t.sec y).dyn = .clearing (s.map.groupHoldTime g)))
      ∧ KeepsOtherConvoys s t c ∧ t.cvt.trucks = s.cvt.trucks
      ∧ KeepsAllBut s t [.convoyTable, .interlock, .tracker, .governor, .dispatcher]

/-- R88, R90, R103 to R105: a fault stops the convoy with its fault stored, its trucks hard-stopped and its units DOWN,
and ends its request and watch; its granted-ahead road is at rest at once, where nobody waits for it; a convoy already
STOPPED is only noticed. A stray or an overrun blocks unheld road in service and faults a holder. At an overrun into a
held section both convoys' faults are made, each as if the other had been made first, so that neither is granted road
then; that the scans follow both faults is the model's reading (notes/assumptions/22.md, notes/assumptions/13.md). -/
def Obligations.FaultsStopConvoysAndStraysBlockRoad : Prop :=
  ∀ (s : State),
    (∀ c f n, (s.convoy c).state = .stopped →
      s.fault c f n = s.raise ⟨f.kind.notice, some c, some f.sec, none, some f.member, n⟩ (.ownerOf c))
    ∧ (∀ c f n, MembersActive s → QueuesAgree s → (s.convoy c).state ≠ .stopped →
      let t := s.fault c f n
      t.convoy c = { s.convoy c with state := .stopped, fault := some f, resume := none }
        ∧ (∀ a ∈ truckAddrs (s.members c), t.speed a = ⟨0, 0⟩ ∧ t.radio a = (s.radio a).stopped s.eventNo)
        ∧ t.track c = { s.track c with units := s.allDown c } ∧ t.road c = ⟨(s.road c).route, .idle, .idle⟩
        ∧ ⟨⟨f.kind.notice, some c, some f.sec, none, some f.member, n⟩, s.recipients (.ownerOf c)⟩ ∈ t.raised
        ∧ GrantsNothing s t c
        ∧ t.cvt.trucks = s.cvt.trucks ∧ KeepsAllBut s t roadBlocks ∧ t.ports = s.ports
        ∧ (NobodyWaits s (s.aheadOf c) →
          (∀ x, t.sec x = ⟨if GivenBack s c (s.aheadOf c) x then s.restState x else (s.sec x).dyn, (s.sec x).stock,
              s.queueWithout c (.sec x)⟩)
          ∧ (∀ g, t.grp g = ⟨if .grp g ∈ s.aheadOf c then none else (s.grp g).holder, s.queueWithout c (.grp g)⟩)
          ∧ KeepsOtherConvoys s t c ∧ KeepsOtherTrucks s t (truckAddrs (s.members c))))
    ∧ (∀ x d c,
      let blocked := s.modSec x fun q => { q with dyn := .blocked }
      let notice : Notice := ⟨.stray, none, some x, none, none, d.1⟩
      (s.stray x d = match (s.sec x).dyn with
        | .free => blocked.raise notice .allPorts
        | .parked => blocked.raise notice .allPorts
        | .clearing _ => blocked.raise notice .allPorts
        | .held e => s.fault e ⟨.count, x, s.countAt e x⟩
        | .barred => s.raise notice .levelZero
        | .blocked => s)
      ∧ (s.secHolder x = none → s.overrun c x
        = (if (s.sec x).dyn = .barred then s else blocked).fault c ⟨.overrun, x, 0⟩))
    ∧ ∀ x c e, (s.sec x).dyn = .held e → e ≠ c → MembersActive s → QueuesAgree s →
      let t := s.overrun c x
      let mine : ConvoyFault := ⟨.overrun, x, 0⟩
      let theirs : ConvoyFault := ⟨.intruded, x, s.countAt e x⟩
      let suffers (d : Conv) (f : ConvoyFault) : Prop :=
        ((s.convoy d).state = .stopped → t.convoy d = s.convoy d)
        ∧ ((s.convoy d).state ≠ .stopped →
          t.convoy d = { s.convoy d with state := .stopped, fault := some f, resume := none }
          ∧ (∀ a ∈ truckAddrs (s.members d), t.speed a = ⟨0, 0⟩ ∧ t.radio a = (s.radio a).stopped s.eventNo)
          ∧ t.track d = { s.track d with units := s.allDown d } ∧ t.road d = ⟨(s.road d).route, .idle, .idle⟩
          ∧ GrantsNothing s t d
          ∧ ∀ y, GivenBack s d (s.aheadOf d) y → t.secHolder y ≠ some d)
      suffers c mine ∧ suffers e theirs ∧ KeepsAllBut s t roadBlocks ∧ t.ports = s.ports
        ∧ ⟨⟨.overrun, some c, some x, none, some 0, convoyNumber e⟩, s.recipients (.ownerOf c)⟩ ∈ t.raised
        ∧ ⟨⟨.intruded, some e, some x, none, some (s.countAt e x), convoyNumber c⟩, s.recipients (.ownerOf e)⟩
          ∈ t.raised

/-- A brake passage (R106, R107). It is the leader's where the section is route[head] of a convoy with brake-seen clear
that is ROLLING, or HELD with resume-to ROLLING; any other passes unnoticed. A HELD convoy takes resume-to ARRIVING at
the last route entry. A ROLLING one whose next section is effective goes on; else its leader is hard-stopped, it becomes
ARRIVING at the last entry, ARRIVED where its tail equals its head, and WAITING elsewhere, with the notice that names it;
and its follower units stand down: a unit whose last vehicle stands at the head is DOWN, its truck hard-stopped, and
another in RUN is DOWN-PENDING. -/
def Obligations.BrakePassagesStopTheLeader : Prop :=
  ∀ (s : State) (x : Sec),
    let brakes (c : Conv) : Prop := s.headSec? c = some x ∧ (s.track c).brakeSeen = false
      ∧ ((s.convoy c).state = .rolling ∨ ((s.convoy c).state = .held ∧ (s.convoy c).resume = some .rolling))
    ((∀ c, ¬ brakes c) → s.brakePassage x = s)
    ∧ ∀ c, brakes c → (∀ d, brakes d → d = c) →
      let t := s.brakePassage x
      let last := (s.track c).head + 1 = (s.road c).route.length
      let arrived := (s.track c).tail = (s.track c).head
      (∀ u w, (s.unitsFor c)[u]? = some w →
        (s.lastAtHead c u = true ↔ (s.track c).position w.last = (s.track c).head))
      ∧ (t.track c).brakeSeen = true ∧ t.track c = { s.track c with brakeSeen := true, units := (t.track c).units }
      ∧ KeepsOtherConvoys s t c ∧ KeepsOtherTrucks s t (truckAddrs (s.members c)) ∧ t.cvt.trucks = s.cvt.trucks
      ∧ KeepsAllBut s t [.convoyTable, .tracker, .governor, .dispatcher]
      ∧ ((s.convoy c).state = .held → t.convoy c = { s.convoy c with
          resume := if last then some .arriving else some .rolling } ∧ t.hwg = s.hwg ∧ t.rds = s.rds
        ∧ (t.track c).units = (s.track c).units ∧ t.raised = s.raised)
      ∧ ((s.convoy c).state = .rolling → ¬ last → s.nextEffective c = true →
        t = s.modTrack c fun k => { k with brakeSeen := true })
      ∧ ((s.convoy c).state = .rolling → (truckAddrs (s.members c)).Nodup →
        (∀ r ∈ (s.track c).records, r.j ≤ (s.track c).head) → last ∨ s.nextEffective c = false →
        t.convoy c = { s.convoy c with
            state := if last then (if arrived then .arrived else .arriving) else .waiting }
          ∧ (∀ a, s.leader? c = some a → t.speed a = ⟨0, 0⟩ ∧ t.radio a = (s.radio a).stopped s.eventNo)
          ∧ (∀ u, 1 ≤ u → u < unitCount (s.members c) →
            t.unitState? c u = ((s.unitState? c u).map fun r =>
              if s.lastAtHead c u then .down else if r = .run then .downPending else r)
            ∧ ∀ a, s.unitTruck? c u = some a →
              if s.lastAtHead c u then t.speed a = ⟨0, 0⟩ ∧ t.radio a = (s.radio a).stopped s.eventNo
              else t.speed a = s.speed a ∧ t.radio a = s.radio a)
          ∧ t.raised = s.raised ++
            (if last then (if arrived then [⟨⟨.arrived, some c, some x, none, none, 0⟩, s.recipients (.ownerOf c)⟩] else [])
            else [⟨⟨.waiting, some c, s.nextSec? c, none, none, 0⟩, s.recipients (.ownerOf c)⟩]))

/-- What a passage of member `k` at boundary `j` does to a follower unit, in the steps of R108, and the restart procedure
(R109). A DOWN-PENDING unit whose last vehicle passes stands down, in WAITING at any boundary and in ARRIVING at the
head's; a START-PENDING unit restarts behind the vehicle ahead of it, or behind a unit that is DOWN, to the lesser of its
reference and the caps of its section; a unit in RUN whose truck passes behind a stopped one is START-PENDING; any other
stays as it is. The units take their steps from the front. The restart applies the leader target, makes a WAITING convoy
with a target above 0 ROLLING, and sets the units by the resulting state. -/
def Obligations.FollowerUnitsStepAndRestart : Prop :=
  ∀ (s : State) (c : Conv), (truckAddrs (s.members c)).Nodup →
    (∀ k j u w a ahead, 1 ≤ u → (s.unitsFor c)[u]? = some w → w.truck = a → (s.unitsFor c)[u - 1]? = some ahead →
      let t := s.unitSteps c k j u
      let waits := (s.convoy c).state = .waiting ∨ (s.convoy c).state = .arriving
      let behindDown := waits ∧ (u = 1 ∨ s.unitState? c (u - 1) = some .down)
      let cap := match s.routeAt c ((s.track c).position w.first) with
        | some x => s.vcap c x
        | none => 0
      let ref := if behindDown then s.approachCap c else s.unitCmd c (u - 1)
      let speed := if s.hls.halted then 0 else min ref cap
      let others : Prop := (∀ v, v ≠ u → t.unitState? c v = s.unitState? c v) ∧ KeepsOtherTrucks s t [a]
        ∧ KeepsOtherConvoys s t c ∧ t.convoy c = s.convoy c ∧ KeepsAllBut s t [.tracker, .governor, .dispatcher]
      (s.unitState? c u = some .downPending →
        if w.last = k ∧ ((s.convoy c).state = .waiting ∨ ((s.convoy c).state = .arriving ∧ j = (s.track c).head)) then
          t.unitState? c u = some .down ∧ t.speed a = ⟨0, 0⟩ ∧ t.radio a = (s.radio a).stopped s.eventNo ∧ others
        else t = s)
      ∧ (s.unitState? c u = some .startPending →
        if ahead.last = k ∨ behindDown then
          t.unitState? c u = some (if speed = 0 then .startPending else if waits then .downPending else .run)
            ∧ t.speed a = ⟨speed, (s.speed a).cmd⟩ ∧ t.radio a = s.radio a ∧ others
        else t = s)
      ∧ (s.unitState? c u = some .run →
        if w.first = k ∧ s.unitCmd c (u - 1) = 0 then t = s.setUnit c u .startPending else t = s)
      ∧ (s.unitState? c u = some .down → t = s))
    ∧ (∀ k j, s.afterPassage c k j
      = (List.range' 1 (unitCount (s.members c) - 1)).foldl (fun v u => v.unitSteps c k j u) s)
    ∧ let t := s.restart c
      t.convoy c = { s.convoy c with state :=
          if (s.convoy c).state = .waiting ∧ 0 < s.leaderTarget c .waiting then .rolling else (s.convoy c).state }
        ∧ (∀ a, s.leader? c = some a → (t.speed a).set = s.leaderTarget c (s.convoy c).state)
        ∧ ((s.convoy c).state ∈ [ConvoyState.rolling, .waiting] → UnitsRestarted s t c (t.convoy c).state)
        ∧ t.track c = { s.track c with units := (t.track c).units }
        ∧ KeepsOtherConvoys s t c ∧ KeepsOtherTrucks s t (truckAddrs (s.members c)) ∧ t.cvt.trucks = s.cvt.trucks
        ∧ KeepsAllBut s t [.convoyTable, .tracker, .governor, .dispatcher]

/-! ### Timers -/

/-- SETTLE_TIMER_EXPIRY (R84, R109): at the timer's time the watch becomes EFFECTIVE; for the next section the leader
takes its target, and a WAITING convoy with a target above 0 is ROLLING. The ports get nothing but the look of their
transmitters (R154). No timer, no event. That the event takes
place when the timer has run out is the model's choice (notes/assumptions/10.md). -/
def Obligations.SettledForksBecomeEffective : Prop :=
  ∀ (s : State) (c : Conv),
    (s.settleLeft c = none → exec (.settleTimerExpiry c) s = .next s)
    ∧ ∀ m ms, s.raised = [] → s.running = true → (s.road c).watch = .settling m ms →
      let u := (s.advance ms).modRoad c fun w => { w with watch := .effective m }
      (m ≠ (s.track c).head + 1 → exec (.settleTimerExpiry c) s = .next (State.looked { u with eventNo := s.eventNo + 1 }))
      ∧ (m = (s.track c).head + 1 → ∃ t, exec (.settleTimerExpiry c) s = .next t ∧ t.sil = u.sil
        ∧ t.convoy c = { s.convoy c with state :=
            if (s.convoy c).state = .waiting ∧ 0 < t.leaderTarget c .waiting then .rolling else (s.convoy c).state }
        ∧ (∀ a, s.leader? c = some a → s.formed c = true → (truckAddrs (s.members c)).Nodup →
          Targeted (s.advance ms) t a (t.leaderTarget c (s.convoy c).state))
        ∧ KeepsOtherConvoys u t c ∧ KeepsOtherTrucks u t (truckAddrs (s.members c)) ∧ t.cvt.trucks = u.cvt.trucks
        ∧ t.ports = u.ports.map PortState.look
        ∧ KeepsAllBut u t [.convoyTable, .tracker, .governor, .dispatcher, .consolePorts])

/-- GAP_TIMER_TLAG and GAP_TIMER_TLOST (R111, R127): at its Tlag a timer boosts a follower in RUN once, by Aacc up to
the cap of its section, and the ports get nothing but the look of their transmitters (R154); at its Tlost it stops, and the convoy is STOPPED with LOST. A timer that does not count brings
neither. That the event takes place when the timer has run out is the model's choice (notes/assumptions/10.md). -/
def Obligations.GapTimersBoostAndLose : Prop :=
  ∀ (s : State) (c : Conv) (j : Nat),
    (s.lagLeft c j = none → exec (.gapTimerTlag c j) s = .next s)
    ∧ (s.lostLeft c j = none → exec (.gapTimerTlost c j) s = .next s)
    ∧ (∀ ms r, s.raised = [] → s.lagLeft c j = some ms → (s.track c).record? j = some r →
      let u := s.advance ms
      let n := unitIndex (s.members c) r.n
      ∃ t, exec (.gapTimerTlag c j) s = .next t
        ∧ t.track c = (u.track c).modRecord j (fun q => { q with lagDone := true })
        ∧ (∀ a x, s.unitTruck? c n = some a → s.unitSec? c n = some x → s.unitState? c n = some .run →
          s.hls.halted = false → t.speed a
            = ⟨max (s.speed a).set (min ((s.speed a).set + (s.convoy c).params.aacc) (s.vcap c x)), (s.speed a).cmd⟩)
        ∧ (∀ a, (s.unitTruck? c n ≠ some a ∨ s.unitState? c n ≠ some .run ∨ s.hls.halted = true) →
          t.speed a = s.speed a)
        ∧ (∀ d, d ≠ c → t.track d = u.track d) ∧ t.ports = u.ports.map PortState.look
        ∧ KeepsAllBut u t [.tracker, .governor, .consolePorts])
    ∧ (∀ ms r x, s.raised = [] → MembersActive s → QueuesAgree s → s.lostLeft c j = some ms →
      (s.track c).record? j = some r → s.routeAt c j = some x → (s.convoy c).state ≠ .stopped →
      ∃ t, exec (.gapTimerTlost c j) s = .next t
        ∧ t.convoy c = { s.convoy c with state := .stopped, fault := some ⟨.lost, x, r.n⟩, resume := none }
        ∧ (∀ q, (t.track c).record? j = some q → q.running = false)
        ∧ (∀ a ∈ truckAddrs (s.members c), HardStopped s t a)
        ∧ (t.track c).units = s.allDown c ∧ t.road c = ⟨(s.road c).route, .idle, .idle⟩
        ∧ KeepsAllBut (s.advance ms) t roadBlocks ∧ KeepsPorts (s.advance ms) t)

/-- RAMP_TICK (R116): the commanded speed of every ACTIVE truck moves toward its set speed by at most its convoy's
Aacc or Adec, the next tick is 50 ms away, and the ports get nothing but the look of their transmitters (R154); no tick comes before the load has ended. That the event takes place
when the timer has run out is the model's choice (notes/assumptions/10.md). -/
def Obligations.RampTicksMoveCommandedSpeeds : Prop :=
  ∀ (s : State), (s.running = false → exec .rampTick s = .next s)
    ∧ (s.raised = [] → s.running = true → ∃ t, exec .rampTick s = .next t ∧ t.hwg.tickInMs = 50
      ∧ t.ports = (s.advance s.hwg.tickInMs).ports.map PortState.look
      ∧ KeepsAllBut (s.advance s.hwg.tickInMs) t [.governor, .consolePorts]
      ∧ ∀ a, match s.usage a with
        | .active c => (t.speed a).set = (s.speed a).set ∧ (t.speed a).cmd =
            (if (s.speed a).cmd < (s.speed a).set then
              (s.speed a).cmd + min (s.convoy c).params.aacc ((s.speed a).set - (s.speed a).cmd)
            else (s.speed a).cmd - min (s.convoy c).params.adec ((s.speed a).cmd - (s.speed a).set))
        | _ => t.speed a = s.speed a)

/-- The follower computation (R125, R126): the proportional speed with its correction truncated toward zero, half the
speed ahead for a gap below half the target, 0 behind a stopped truck; then the floor of 1, the cap, and 0 while
HALTED. The commanded speed is left to the ramp. -/
def Obligations.FollowersAreSetByTheirGap : Prop :=
  ∀ (s : State) (c : Conv) (a : Addr) (k j g tg : Nat) (x : Sec), s.routeAt c j = some x →
    let t := s.followerComputation c a k j g tg
    let vp := s.unitCmd c (unitIndex (s.members c) (k - 1))
    let kp := (s.convoy c).params.kp
    let limited (raw : Nat) : Nat := min (min (max raw 1) (s.vcap c x)) 63
    KeepsAllBut s t [.governor] ∧ (∀ b, b ≠ a → t.speed b = s.speed b) ∧ (t.speed a).cmd = (s.speed a).cmd
      ∧ (t.speed a).set = (if s.hls.halted = true ∨ vp = 0 then 0
        else if g < tg / 2 then limited (vp / 2)
        else if tg ≤ g then limited (vp + (g - tg) * kp / 1000)
        else limited (vp - (tg - g) * kp / 1000))

/-! ### The radio -/

/-- SLOT_START with the modem not ready, and RADIO_LOST (R130, R131, R143, R161): no frame is sent and no truck's
record changes; the not-ready count rises to 20, and on reaching it the radio is lost, which halts a RUNNING part.
That a slot starts when its timer has run out, and that RADIO_LOST is such a slot start, are the model's choices
(notes/assumptions/10.md, notes/assumptions/12.md). -/
def Obligations.SlotsWithoutAReadyModemCountToTheLoss : Prop :=
  ∀ (s : State), (s.running = false → exec (.slotStart false) s = .next s)
    ∧ exec .radioLost s = (if s.rds.notReady = 19 then exec (.slotStart false) s else .next s)
    ∧ (s.raised = [] → s.running = true →
      let u := s.advance s.rds.slotInMs
      let quiet : Dispatcher := { u.rds with
        frame := none, slotInMs := 10, notReady := min (s.rds.notReady + 1) 20, rest := s.rds.rest - 1
        burst := if 0 < s.rds.rest then s.rds.burst else 0 }
      (s.rds.notReady ≠ 19 →
        exec (.slotStart false) s = .next (State.looked { u with eventNo := s.eventNo + 1, rds := quiet }))
      ∧ (s.rds.notReady = 19 → ∃ t, exec (.slotStart false) s = .next t
        ∧ (s.hls.radio = true →
          t = State.looked { u with eventNo := s.eventNo + 1, rds := { quiet with radioLost := true } })
        ∧ (s.hls.radio = false →
          t.hls = { s.hls with radio := true, halted := true }
          ∧ (∀ q, t.port q = (s.told .allPorts ⟨.halted, none, none, none, none, 3⟩ q (u.port q)).look)
          ∧ (s.hls.halted = true → t.rds = { quiet with radioLost := true }
            ∧ KeepsAllBut u t [.dispatcher, .haltSupervisor, .consolePorts])
          ∧ (s.hls.halted = false →
            t.rds = { quiet with radioLost := true, broadcasts := 3, trucks := t.rds.trucks }
            ∧ (∀ a, s.isActive a = true → HardStopped s t a)
            ∧ (∀ a, s.isActive a = false → t.speed a = s.speed a ∧ t.radio a = s.radio a)
            ∧ KeepsAllBut u t [.tracker, .governor, .dispatcher, .haltSupervisor, .consolePorts]))))

/-- The class order (R134, R135, R142, R143): HALT, STOP, BRANCH, DUE, RAMP, AUX, EARLY, and within each class the oldest
mark, the earliest deadline, the next address or the next port. -/
def Obligations.SlotsChooseByTheClassOrder : Prop :=
  ∀ (s : State),
    let first (f : Addr → Nat) (has : Addr → Prop) (a : Addr) : Prop :=
      has a ∧ ∀ b, has b → f a < f b ∨ f a = f b ∧ a ≤ b
    let stops (a : Addr) : Prop := (s.radio a).stopMark ≠ none
    let branches (a : Addr) : Prop := s.isActive a = true ∧ (s.radio a).branchMark ≠ none
    let dues (a : Addr) : Prop := s.isActive a = true ∧ ∃ d, (s.radio a).deadline = some d ∧ d ≤ s.now
    let ramps (a : Addr) : Prop := s.isActive a = true ∧ (s.speed a).cmd ≠ (s.radio a).lastSent
    let queued (q : Port) : Prop := s.rds.rest = 0 ∧ s.auxQueue q ≠ []
    let earlies (a : Addr) : Prop := s.isActive a = true ∧ (s.radio a).deadline ≠ none
    let deadline (a : Addr) : Nat := (s.radio a).deadline.getD 0
    let after (a : Addr) : Nat := (a.1 + 32 - (s.rds.rampPointer.1 + 1)) % 32
    (0 < s.rds.broadcasts → s.chooseFrame = .broadcast)
    ∧ (s.rds.broadcasts = 0 →
      (∀ a, first (fun b => (s.radio b).stopMark.getD 0) stops a → s.chooseFrame = .stop a)
      ∧ ((∀ a, ¬ stops a) →
        (∀ a, first (fun b => (s.radio b).branchMark.getD 0) branches a → s.chooseFrame = .branch a)
        ∧ ((∀ a, ¬ branches a) →
          (∀ a, first deadline dues a → s.chooseFrame = .due a)
          ∧ ((∀ a, ¬ dues a) →
            (∀ a, first after ramps a → s.chooseFrame = .ramp a)
            ∧ ((∀ a, ¬ ramps a) →
              (∀ front q back, portsAfter s.rds.auxPointer = front ++ q :: back → queued q →
                (∀ e ∈ front, ¬ queued e) → s.chooseFrame = .aux q)
              ∧ ((∀ q, ¬ queued q) →
                (∀ a, first deadline earlies a → s.chooseFrame = .early a)
                ∧ ((∀ a, ¬ earlies a) → s.chooseFrame = .idle)))))))

/-- SLOT_START with the modem ready (R130 to R132, R136 to R138, R142, R143), by what the slot sends: the four bytes of
Table 8.1 on the line, the served truck's record and no other's, the report that frees a RETIRING truck or starts a settle
time, and a late refresh. That the event takes place when the timer has run out is the model's choice (notes/assumptions/10.md). -/
def Obligations.SlotsSendTheChosenFrame : Prop :=
  ∀ (s : State), s.raised = [] → s.running = true →
    let u := s.advance s.rds.slotInMs
    let hls : HaltSupervisor := if s.rds.radioLost then { s.hls with radio := false } else s.hls
    let counted (aux : Bool) : Dispatcher := { u.rds with
      slotInMs := 10, notReady := 0, radioLost := false, rest := if 0 < s.rds.rest then s.rds.rest - 1
        else if aux = true ∧ s.rds.burst + 1 = 4 then 2 else 0
      burst := if 0 < s.rds.rest then s.rds.burst
        else if aux = true ∧ s.rds.burst + 1 ≠ 4 then s.rds.burst + 1 else 0 }
    let bit (v : Bool) (weight : Nat) : Nat := if v then weight else 0
    let framed (address : Nat) (branch : Bool) (speed aux : Nat) : Option (List Byte) :=
      let b0 : Byte := BitVec.ofNat 8 (0x40 + address)
      let b1 : Byte := BitVec.ofNat 8 (bit branch 0x40 + speed)
      let b2 : Byte := BitVec.ofNat 8 aux
      some [b0, b1, b2, b0 ^^^ b1 ^^^ b2 ^^^ 0x5A]
    let sent (a : Addr) (head hazard horn coupler : Bool) (t : State) : Prop :=
      (∀ b, b ≠ a → t.radio b = s.radio b)
      ∧ (∀ c, s.usage a = .active c →
        t.rds.frame = framed (a.1 + 1) (s.radio a).branch (s.speed a).cmd
          (bit head 1 + bit hazard 2 + bit horn 4 + bit coupler 8)
        ∧ (s.leader? c ≠ some a ∨ (∀ m, (s.road c).watch = .awaiting m → s.settleTimeAt c m ≠ 0) → t.radio a
          = ⟨(s.speed a).cmd, (s.radio a).branch, head, hazard, some (u.now + s.rds.period), none, none⟩)
        ∧ t.cvt.trucks = s.cvt.trucks
        ∧ (s.leader? c ≠ some a ∨ (∀ m, (s.road c).watch ≠ .awaiting m) → KeepsAllBut u t
          [.dispatcher, .haltSupervisor, .consolePorts]
          ∧ ∀ q, t.port q = match (s.radio a).deadline with
            | some d => if d + 10 < u.now then (s.told (.ownerOf c)
                ⟨.refreshLate, some c, none, some a, none, min (u.now - d) 65535⟩ q (u.port q)).look
              else (u.port q).look
            | none => (u.port q).look)
        ∧ (∀ m, s.leader? c = some a → (s.road c).watch = .awaiting m → (t.road c).watch
          = if s.settleTimeAt c m = 0 then .effective m else .settling m (s.settleTimeAt c m)))
      ∧ (∀ c, s.usage a = .retiring c → t.usage a = .free ∧ t.radio a = ⟨0, false, false, false, none, none, none⟩
        ∧ t.rds.frame = framed (a.1 + 1) (s.radio a).branch 0 0
        ∧ KeepsAllBut u t [.dispatcher, .convoyTable, .haltSupervisor, .consolePorts] ∧ KeepsPorts u t
        ∧ t.cvt.convoys = s.cvt.convoys)
      ∧ (s.usage a = .free → t.cvt = s.cvt ∧ KeepsAllBut u t [.dispatcher, .haltSupervisor, .consolePorts]
        ∧ KeepsPorts u t)
    ∃ t, exec (.slotStart true) s = .next t ∧ t.hls = hls
      ∧ match u.chooseFrame with
        | .idle => t = State.looked { u with
            eventNo := s.eventNo + 1, hls := hls, rds := { counted false with frame := none } }
        | .broadcast => t = State.looked { u with
            eventNo := s.eventNo + 1, hls := hls
            rds := { counted false with
              frame := some [0x40, 0x00, 0x00, 0x1A], broadcasts := s.rds.broadcasts - 1 } }
        | .aux q => ∀ e rest, s.auxQueue q = e :: rest → sent e.addr
            (match e.head with | .leave => (s.radio e.addr).headLights | .on => true | .off => false)
            (match e.hazard with | .leave => (s.radio e.addr).hazard | .on => true | .off => false)
            e.horn (e.coupler && (s.speed e.addr).cmd == 0) t
          ∧ t.rds = { counted true with
              frame := t.rds.frame, trucks := t.rds.trucks, auxPointer := q
              auxQueues := s.rds.auxQueues.put q rest }
        | .ramp a => sent a (s.radio a).headLights (s.radio a).hazard false false t
          ∧ t.rds = { counted false with frame := t.rds.frame, trucks := t.rds.trucks, rampPointer := a }
        | .stop a => sent a (s.radio a).headLights (s.radio a).hazard false false t
          ∧ t.rds = { counted false with frame := t.rds.frame, trucks := t.rds.trucks }
        | .branch a => sent a (s.radio a).headLights (s.radio a).hazard false false t
          ∧ t.rds = { counted false with frame := t.rds.frame, trucks := t.rds.trucks }
        | .due a => sent a (s.radio a).headLights (s.radio a).hazard false false t
          ∧ t.rds = { counted false with frame := t.rds.frame, trucks := t.rds.trucks }
        | .early a => sent a (s.radio a).headLights (s.radio a).hazard false false t
          ∧ t.rds = { counted false with frame := t.rds.frame, trucks := t.rds.trucks }

/-! ### The supply and the transmitters -/

/-- SUPPLY_LOW and SUPPLY_OK outside a held reset (R120, R165): below V_T a NORMAL supply becomes LOW, with every set speed
lowered to 24; 0.15 V above V_T a LOW one becomes NORMAL; each leader takes its target anew and all ports are told; in
between, and before the load ends, only the line has changed. That either command makes both comparisons, and that one
which crosses no threshold, or comes before the load ends, sets the line alone, are the model's choices
(notes/assumptions/19.md). -/
def Obligations.TheSupplyStateFollowsTheSupply : Prop :=
  ∀ (s : State) (mv : Nat), s.raised = [] → 4200 ≤ mv → s.mu.phase ≠ .held →
    let vt := 4600 + 100 * s.map.settings.threshold
    let pins : Pins := ⟨s.pins.resetn, mv, decide (mv < if s.pins.brownOut then 4400 else 4200)⟩
    let targets (t : State) (cap : Nat → Nat) : Prop :=
      (∀ c a, s.formed c = true → s.leader? c = some a → Targeted s t a (t.leaderTarget c (s.convoy c).state))
      ∧ (∀ a, (∀ c, s.formed c = true → s.leader? c ≠ some a) →
        t.speed a = ⟨if s.isActive a then cap (s.speed a).set else (s.speed a).set, (s.speed a).cmd⟩
        ∧ t.radio a = s.radio a)
      ∧ t.rds = { s.rds with trucks := t.rds.trucks } ∧ t.pins = pins
      ∧ KeepsAllBut s t [.governor, .dispatcher, .pins, .haltSupervisor, .consolePorts]
    ∀ i, i = Instr.supplyLow mv ∨ i = Instr.supplyOk mv →
      (s.running = false ∨ (s.hls.supplyLow = false ∧ vt ≤ mv) ∨ (s.hls.supplyLow = true ∧ mv < vt + 150) →
        exec i s = .next (State.looked { s with eventNo := s.eventNo + 1, pins := pins }))
      ∧ (MembersActive s → s.running = true → s.hls.supplyLow = false → mv < vt → ∃ t, exec i s = .next t
        ∧ t.hls = { s.hls with supplyLow := true } ∧ targets t (min · 24)
        ∧ ∀ q, t.port q = (s.told .allPorts ⟨.supplyLow, none, none, none, none, 0⟩ q (s.port q)).look)
      ∧ (MembersActive s → s.running = true → s.hls.supplyLow = true → vt + 150 ≤ mv → ∃ t, exec i s = .next t
        ∧ t.hls = { s.hls with supplyLow := false } ∧ targets t id
        ∧ ∀ q, t.port q = (s.told .allPorts ⟨.supplyOk, none, none, none, none, 0⟩ q (s.port q)).look)

/-- R147, R153, R154, R159. An idle transmitter looks at its queues: it sends the oldest reply, or else a batch of all
queued notices in one or two numbered messages. FLUSH_TIMER_EXPIRY is remembered; MESSAGE_END lets the next message of a
batch follow, or leaves the transmitter idle; REPLY_SEND_START and BATCH_START are the starts themselves, on an idle
transmitter or at the end of the last message in progress. The looks that end these events, and the starts they make, are
one step with the event (notes/assumptions/24.md); that a command changes nothing where its event cannot occur
(notes/assumptions/16.md), that MESSAGE_END ends the message at once whatever time is left (notes/assumptions/8.md), and
when the flush timer's event comes (notes/assumptions/10.md), are the model's choices too. -/
def Obligations.TransmittersSendRepliesAndBatches : Prop :=
  (∀ q : PortState,
    let m := batchMessage q.batchSeq (q.notices.take 8) (decide (8 < q.notices.length))
    (∀ r rest, q.attached = true → q.tx = .idle → q.replies = r :: rest →
      q.look = { q with replies := rest, tx := .sending r.bytes ((5 + r.body.length) * 40) false [] })
    ∧ (q.attached = true → q.tx = .idle → q.replies = [] →
      if q.notices ≠ [] ∧ (4 ≤ q.notices.length ∨ q.flush = .expired ∨ ∃ n ∈ q.notices, n.kind.severity = 0) then
        q.look = { q with
          notices := [], flush := .stopped, batchSeq := q.batchSeq + 1
          tx := .sending m.bytes ((5 + m.body.length) * 40) true
            (if q.notices.length ≤ 8 then [] else [q.notices.drop 8]) }
      else q.look = q)
    ∧ (q.attached = false ∨ q.tx ≠ .idle → q.look = q))
  ∧ ∀ (s : State) (p : Port), s.raised = [] →
    let q := s.port p
    let become (r : PortState) : State :=
      State.looked { s with eventNo := s.eventNo + 1, ports := s.ports.put p r }
    let ready := q.notices ≠ [] ∧ (4 ≤ q.notices.length ∨ q.flush = .expired ∨ ∃ n ∈ q.notices, n.kind.severity = 0)
    let free := q.attached = true ∧ (q.tx = .idle ∨ ∃ bytes left batch, q.tx = .sending bytes left batch [])
    (s.flushLeft p = none → exec (.flushTimerExpiry p) s = .next s)
    ∧ (∀ ms, q.flush = .running ms →
      let u := s.advance ms
      exec (.flushTimerExpiry p) s = .next (State.looked { u with
        eventNo := s.eventNo + 1, ports := u.ports.put p { u.port p with flush := .expired } }))
    ∧ (free → q.replies = [] → ready → exec (.batchStart p) s = .next (become { q with tx := .idle }))
    ∧ (¬ free ∨ q.replies ≠ [] ∨ ¬ ready → exec (.batchStart p) s = .next s)
    ∧ (free → q.replies ≠ [] → exec (.replySendStart p) s = .next (become { q with tx := .idle }))
    ∧ (¬ free ∨ q.replies = [] → exec (.replySendStart p) s = .next s)
    ∧ (q.tx = .idle → exec (.messageEnd p) s = .next s)
    ∧ (∀ bytes left batch, q.tx = .sending bytes left batch [] →
      exec (.messageEnd p) s = .next (become { q with tx := .idle }))
    ∧ ∀ bytes left batch ns rest, q.tx = .sending bytes left batch (ns :: rest) →
      let m := batchMessage q.batchSeq ns (!rest.isEmpty)
      exec (.messageEnd p) s = .next (become { q with
        batchSeq := q.batchSeq + 1, tx := .sending m.bytes ((5 + m.body.length) * 40) true rest })

/-! ### Encoding and invariants -/

/-- Every request, laid out by R147 and Table 9.3, is framed by the receiver of R148 as that one message, whatever bytes
it holds, and read as that request. It is about the receiver's function on bytes: a byte is no step of the model, whose
commands are whole messages (notes/assumptions/7.md). -/
def Obligations.RequestMessagesAreReadBack : Prop :=
  ∀ (i : Instr) (p : Port) (m : Message), i.asMessage = some (p, m) → i.wellFormed = true →
    Receiver.hunt.onBytes m.bytes = (.hunt, [m]) ∧ requestOf p m = i

/-- Every step keeps the working map's profiles and settings in their ranges (conditions 11 and 12 of Table 1.5), the
port queues within their room (R141, R153, R158), no transmitter idle while a reply waits or a batch may start (R154),
and the chord state and its halt cause with the chord (R46, R160). -/
def Obligations.EveryStepKeepsRangesRoomAndChord : Prop :=
  ∀ (s t : State), step s = .next t → Quiet s →
    Quiet t ∧ (MapInRange s → MapInRange t) ∧ (WithinRoom s → WithinRoom t)
      ∧ (NothingWaitsIdle s → NothingWaitsIdle t) ∧ (ChordAgrees s → ChordAgrees t)

/-- Every step keeps the law that while the part is HALTED the set and commanded speed of every truck are 0 (R121), with
the laws of membership (R49) and of standing trucks (R115) that it rests on. -/
def Obligations.EveryStepKeepsHaltedTrucksStanding : Prop :=
  ∀ (s t : State), step s = .next t → HaltedStand s → HaltedStand t

/-- Every step keeps the queue law (R77, R79): an entry's convoy is QUEUED for that resource and no other, and an UNFORMED
convoy has no route, no request and no watch. -/
def Obligations.EveryStepKeepsTheQueueLaw : Prop :=
  ∀ (s t : State), step s = .next t → QueuesAgree s → QueuesAgree t

/-- No section or group passes from unheld to held while the part is HALTED (R82), whatever the step. -/
def Obligations.NothingIsGrantedWhileHalted : Prop :=
  ∀ (s t : State), step s = .next t → s.hls.halted = true → t.hls.halted = true →
    (∀ x, s.secHolder x = none → t.secHolder x = none) ∧ (∀ g, (s.grp g).holder = none → (t.grp g).holder = none)
end

