-- ==== Sys2Proof/Laws/State.lean ====
section
/-!
SUPPORT. One lemma for each field of the state under each named update, so that no proof unfolds a record update; and,
for each record accessor, what it reads after the updates of its own block.
-/

namespace Sys2Proof.Machine

open Sys2Proof

set_option Elab.async false

variable (s : State)

/-! ### Tables -/

@[simp] theorem tab_nth_put_self {n : Nat} {α : Type} (t : Tab n α) (i : Fin n) (x : α) : (t.put i x).nth i = x := by
  simp [Tab.put, Tab.nth]

theorem tab_nth_put {n : Nat} {α : Type} (t : Tab n α) (i j : Fin n) (x : α) :
    (t.put i x).nth j = if j = i then x else t.nth j := by
  by_cases h : j = i
  · simp [h]
  · have h' : i.1 ≠ j.1 := fun e => h (Fin.ext e.symm)
    simp [Tab.put, Tab.nth, h, h']

@[simp] theorem tab_nth_put_ne {n : Nat} {α : Type} (t : Tab n α) {i j : Fin n} (x : α) (h : j ≠ i) :
    (t.put i x).nth j = t.nth j := by simp [tab_nth_put, h]

@[simp] theorem tab_nth_all {n : Nat} {α : Type} (x : α) (i : Fin n) : (Tab.all n x).nth i = x := by
  simp [Tab.all, Tab.nth]

@[simp] theorem tab_nth_make {n : Nat} {α : Type} (f : Fin n → α) (i : Fin n) : (Tab.make n f).nth i = f i := by
  simp [Tab.make, Tab.nth]

@[simp] theorem tab_nth_map {n : Nat} {α β : Type} (f : α → β) (t : Tab n α) (i : Fin n) :
    (t.map f).nth i = f (t.nth i) := by simp [Tab.map, Tab.nth]

theorem tab_ext {n : Nat} {α : Type} {t u : Tab n α} (h : ∀ i, t.nth i = u.nth i) : t = u := by
  apply Vector.ext
  intro i hi
  exact h ⟨i, hi⟩

@[simp] theorem tab_put_put {n : Nat} {α : Type} (t : Tab n α) (i : Fin n) (x y : α) :
    (t.put i x).put i y = t.put i y := by
  apply tab_ext
  intro j
  by_cases h : j = i <;> simp [h]

@[simp] theorem tab_put_nth {n : Nat} {α : Type} (t : Tab n α) (i : Fin n) : t.put i (t.nth i) = t := by
  apply tab_ext
  intro j
  by_cases h : j = i <;> simp [h]

@[simp] theorem perPort_nth_put_self {α : Type} (t : PerPort α) (p : Port) (x : α) : (t.put p x).nth p = x := by
  cases p <;> rfl

theorem perPort_nth_put {α : Type} (t : PerPort α) (p q : Port) (x : α) :
    (t.put p x).nth q = if q = p then x else t.nth q := by
  cases p <;> cases q <;> rfl

@[simp] theorem perPort_nth_put_ne {α : Type} (t : PerPort α) {p q : Port} (x : α) (h : q ≠ p) :
    (t.put p x).nth q = t.nth q := by simp [perPort_nth_put, h]

@[simp] theorem perPort_nth_all {α : Type} (x : α) (p : Port) : (PerPort.all x).nth p = x := by cases p <;> rfl

@[simp] theorem perPort_nth_map {α β : Type} (f : α → β) (t : PerPort α) (p : Port) :
    (t.map f).nth p = f (t.nth p) := by cases p <;> rfl

@[simp] theorem perPort_put_put {α : Type} (t : PerPort α) (p : Port) (x y : α) :
    (t.put p x).put p y = t.put p y := by cases p <;> rfl

@[simp] theorem perPort_put_nth {α : Type} (t : PerPort α) (p : Port) : t.put p (t.nth p) = t := by cases p <;> rfl

theorem perPort_ext {α : Type} {t u : PerPort α} (h : ∀ p, t.nth p = u.nth p) : t = u := by
  have ha := h .a
  have hb := h .b
  have hc := h .c
  have hd := h .d
  cases t
  cases u
  simp_all [PerPort.nth]

/-! ### `State.looked` -/
@[simp] theorem State.looked_pending : s.looked.pending = s.pending := rfl
@[simp] theorem State.looked_now : s.looked.now = s.now := rfl
@[simp] theorem State.looked_eventNo : s.looked.eventNo = s.eventNo := rfl
@[simp] theorem State.looked_fresh : s.looked.fresh = s.fresh := rfl
@[simp] theorem State.looked_raised : s.looked.raised = s.raised := rfl
@[simp] theorem State.looked_pins : s.looked.pins = s.pins := rfl
@[simp] theorem State.looked_mu : s.looked.mu = s.mu := rfl
@[simp] theorem State.looked_dfe : s.looked.dfe = s.dfe := rfl
@[simp] theorem State.looked_cvt : s.looked.cvt = s.cvt := rfl
@[simp] theorem State.looked_sil : s.looked.sil = s.sil := rfl
@[simp] theorem State.looked_tracks : s.looked.tracks = s.tracks := rfl
@[simp] theorem State.looked_hwg : s.looked.hwg = s.hwg := rfl
@[simp] theorem State.looked_rds : s.looked.rds = s.rds := rfl
@[simp] theorem State.looked_hls : s.looked.hls = s.hls := rfl
@[simp] theorem State.looked_ports : s.looked.ports = s.ports.map PortState.look := rfl
@[simp] theorem State.sec_looked (y : Sec) : s.looked.sec y = s.sec y := rfl
@[simp] theorem State.grp_looked (y : Grp) : s.looked.grp y = s.grp y := rfl
@[simp] theorem State.road_looked (y : Conv) : s.looked.road y = s.road y := rfl
@[simp] theorem State.convoy_looked (y : Conv) : s.looked.convoy y = s.convoy y := rfl
@[simp] theorem State.usage_looked (y : Addr) : s.looked.usage y = s.usage y := rfl
@[simp] theorem State.track_looked (y : Conv) : s.looked.track y = s.track y := rfl
@[simp] theorem State.speed_looked (y : Addr) : s.looked.speed y = s.speed y := rfl
@[simp] theorem State.radio_looked (y : Addr) : s.looked.radio y = s.radio y := rfl
@[simp] theorem State.input_looked (y : Inp) : s.looked.input y = s.input y := rfl
@[simp] theorem State.sectionRec_looked (y : Sec) : s.looked.sectionRec y = s.sectionRec y := rfl
@[simp] theorem State.level_looked (y : Port) : s.looked.level y = s.level y := rfl
@[simp] theorem State.map_looked : s.looked.map = s.map := rfl
@[simp] theorem State.port_looked (y : Port) : s.looked.port y = (s.port y).look := perPort_nth_map _ _ y

/-! ### The look of a transmitter (R154) -/
variable (q : PortState)
@[simp] theorem PortState.look_present : q.look.present = q.present := by
  unfold look startReply
  split
  · split <;> rfl
  · split <;> rfl
@[simp] theorem PortState.look_watchMs : q.look.watchMs = q.watchMs := by
  unfold look startReply
  split
  · split <;> rfl
  · split <;> rfl
@[simp] theorem PortState.look_attached : q.look.attached = q.attached := by
  unfold look startReply
  split
  · split <;> rfl
  · split <;> rfl
@[simp] theorem PortState.look_notifyOn : q.look.notifyOn = q.notifyOn := by
  unfold look startReply
  split
  · split <;> rfl
  · split <;> rfl
@[simp] theorem PortState.look_notifyLevel : q.look.notifyLevel = q.notifyLevel := by
  unfold look startReply
  split
  · split <;> rfl
  · split <;> rfl
@[simp] theorem PortState.look_lastConvoy : q.look.lastConvoy = q.lastConvoy := by
  unfold look startReply
  split
  · split <;> rfl
  · split <;> rfl
@[simp] theorem PortState.look_receiver : q.look.receiver = q.receiver := by
  unfold look startReply
  split
  · split <;> rfl
  · split <;> rfl
@[simp] theorem PortState.look_reserved : q.look.reserved = q.reserved := by
  unfold look startReply
  split
  · split <;> rfl
  · split <;> rfl

/-- A transmitter that is sending does not look. -/
theorem PortState.look_sending (h : q.tx.isIdle = false) : q.look = q := by simp [look, canReply, canBatch, h]

/-- A look that finds nothing to send leaves the port as it is. -/
theorem PortState.look_idle (hr : q.canReply = false) (hb : q.canBatch = false) : q.look = q := by simp [look, hr, hb]

/-- A port without a console sends nothing. -/
theorem PortState.look_detached (h : q.attached = false) : q.look = q := by simp [look, canReply, canBatch, h]

/-- The oldest reply goes first. -/
theorem PortState.look_reply (h : q.canReply = true) : q.look = q.startReply := by simp [look, h]

/-- After the look nothing waits at an idle transmitter. -/
theorem PortState.look_done : q.look.canReply = false ∧ q.look.canBatch = false := by
  unfold look
  split
  · rename_i h
    have : q.replies ≠ [] := fun e => by simp [canReply, e] at h
    unfold startReply
    split
    · contradiction
    · simp [canReply, canBatch, Transmitter.start, Transmitter.isIdle]
  · split
    · simp [canReply, canBatch, startBatch, Transmitter.start, Transmitter.isIdle]
    · simp_all


/-! ### `State.setMap` -/
@[simp] theorem State.setMap_pending (m : LayoutMap) : (s.setMap m).pending = s.pending := rfl
@[simp] theorem State.setMap_now (m : LayoutMap) : (s.setMap m).now = s.now := rfl
@[simp] theorem State.setMap_eventNo (m : LayoutMap) : (s.setMap m).eventNo = s.eventNo := rfl
@[simp] theorem State.setMap_fresh (m : LayoutMap) : (s.setMap m).fresh = s.fresh := rfl
@[simp] theorem State.setMap_raised (m : LayoutMap) : (s.setMap m).raised = s.raised := rfl
@[simp] theorem State.setMap_pins (m : LayoutMap) : (s.setMap m).pins = s.pins := rfl
@[simp] theorem State.setMap_mu (m : LayoutMap) : (s.setMap m).mu = { s.mu with map := m } := rfl
@[simp] theorem State.setMap_dfe (m : LayoutMap) : (s.setMap m).dfe = s.dfe := rfl
@[simp] theorem State.setMap_cvt (m : LayoutMap) : (s.setMap m).cvt = s.cvt := rfl
@[simp] theorem State.setMap_sil (m : LayoutMap) : (s.setMap m).sil = s.sil := rfl
@[simp] theorem State.setMap_tracks (m : LayoutMap) : (s.setMap m).tracks = s.tracks := rfl
@[simp] theorem State.setMap_hwg (m : LayoutMap) : (s.setMap m).hwg = s.hwg := rfl
@[simp] theorem State.setMap_rds (m : LayoutMap) : (s.setMap m).rds = s.rds := rfl
@[simp] theorem State.setMap_ports (m : LayoutMap) : (s.setMap m).ports = s.ports := rfl
@[simp] theorem State.setMap_hls (m : LayoutMap) : (s.setMap m).hls = s.hls := rfl

/-! ### `State.modSec` -/
@[simp] theorem State.modSec_pending (x : Sec) (f : Section → Section) : (s.modSec x f).pending = s.pending := rfl
@[simp] theorem State.modSec_now (x : Sec) (f : Section → Section) : (s.modSec x f).now = s.now := rfl
@[simp] theorem State.modSec_eventNo (x : Sec) (f : Section → Section) : (s.modSec x f).eventNo = s.eventNo := rfl
@[simp] theorem State.modSec_fresh (x : Sec) (f : Section → Section) : (s.modSec x f).fresh = s.fresh := rfl
@[simp] theorem State.modSec_raised (x : Sec) (f : Section → Section) : (s.modSec x f).raised = s.raised := rfl
@[simp] theorem State.modSec_pins (x : Sec) (f : Section → Section) : (s.modSec x f).pins = s.pins := rfl
@[simp] theorem State.modSec_mu (x : Sec) (f : Section → Section) : (s.modSec x f).mu = s.mu := rfl
@[simp] theorem State.modSec_dfe (x : Sec) (f : Section → Section) : (s.modSec x f).dfe = s.dfe := rfl
@[simp] theorem State.modSec_cvt (x : Sec) (f : Section → Section) : (s.modSec x f).cvt = s.cvt := rfl
@[simp] theorem State.modSec_sil (x : Sec) (f : Section → Section) : (s.modSec x f).sil = { s.sil with sections := s.sil.sections.put x (f (s.sec x)) } := rfl
@[simp] theorem State.modSec_tracks (x : Sec) (f : Section → Section) : (s.modSec x f).tracks = s.tracks := rfl
@[simp] theorem State.modSec_hwg (x : Sec) (f : Section → Section) : (s.modSec x f).hwg = s.hwg := rfl
@[simp] theorem State.modSec_rds (x : Sec) (f : Section → Section) : (s.modSec x f).rds = s.rds := rfl
@[simp] theorem State.modSec_ports (x : Sec) (f : Section → Section) : (s.modSec x f).ports = s.ports := rfl
@[simp] theorem State.modSec_hls (x : Sec) (f : Section → Section) : (s.modSec x f).hls = s.hls := rfl

/-! ### `State.modGrp` -/
@[simp] theorem State.modGrp_pending (g : Grp) (f : Group → Group) : (s.modGrp g f).pending = s.pending := rfl
@[simp] theorem State.modGrp_now (g : Grp) (f : Group → Group) : (s.modGrp g f).now = s.now := rfl
@[simp] theorem State.modGrp_eventNo (g : Grp) (f : Group → Group) : (s.modGrp g f).eventNo = s.eventNo := rfl
@[simp] theorem State.modGrp_fresh (g : Grp) (f : Group → Group) : (s.modGrp g f).fresh = s.fresh := rfl
@[simp] theorem State.modGrp_raised (g : Grp) (f : Group → Group) : (s.modGrp g f).raised = s.raised := rfl
@[simp] theorem State.modGrp_pins (g : Grp) (f : Group → Group) : (s.modGrp g f).pins = s.pins := rfl
@[simp] theorem State.modGrp_mu (g : Grp) (f : Group → Group) : (s.modGrp g f).mu = s.mu := rfl
@[simp] theorem State.modGrp_dfe (g : Grp) (f : Group → Group) : (s.modGrp g f).dfe = s.dfe := rfl
@[simp] theorem State.modGrp_cvt (g : Grp) (f : Group → Group) : (s.modGrp g f).cvt = s.cvt := rfl
@[simp] theorem State.modGrp_sil (g : Grp) (f : Group → Group) : (s.modGrp g f).sil = { s.sil with groups := s.sil.groups.put g (f (s.grp g)) } := rfl
@[simp] theorem State.modGrp_tracks (g : Grp) (f : Group → Group) : (s.modGrp g f).tracks = s.tracks := rfl
@[simp] theorem State.modGrp_hwg (g : Grp) (f : Group → Group) : (s.modGrp g f).hwg = s.hwg := rfl
@[simp] theorem State.modGrp_rds (g : Grp) (f : Group → Group) : (s.modGrp g f).rds = s.rds := rfl
@[simp] theorem State.modGrp_ports (g : Grp) (f : Group → Group) : (s.modGrp g f).ports = s.ports := rfl
@[simp] theorem State.modGrp_hls (g : Grp) (f : Group → Group) : (s.modGrp g f).hls = s.hls := rfl

/-! ### `State.modRoad` -/
@[simp] theorem State.modRoad_pending (c : Conv) (f : Road → Road) : (s.modRoad c f).pending = s.pending := rfl
@[simp] theorem State.modRoad_now (c : Conv) (f : Road → Road) : (s.modRoad c f).now = s.now := rfl
@[simp] theorem State.modRoad_eventNo (c : Conv) (f : Road → Road) : (s.modRoad c f).eventNo = s.eventNo := rfl
@[simp] theorem State.modRoad_fresh (c : Conv) (f : Road → Road) : (s.modRoad c f).fresh = s.fresh := rfl
@[simp] theorem State.modRoad_raised (c : Conv) (f : Road → Road) : (s.modRoad c f).raised = s.raised := rfl
@[simp] theorem State.modRoad_pins (c : Conv) (f : Road → Road) : (s.modRoad c f).pins = s.pins := rfl
@[simp] theorem State.modRoad_mu (c : Conv) (f : Road → Road) : (s.modRoad c f).mu = s.mu := rfl
@[simp] theorem State.modRoad_dfe (c : Conv) (f : Road → Road) : (s.modRoad c f).dfe = s.dfe := rfl
@[simp] theorem State.modRoad_cvt (c : Conv) (f : Road → Road) : (s.modRoad c f).cvt = s.cvt := rfl
@[simp] theorem State.modRoad_sil (c : Conv) (f : Road → Road) : (s.modRoad c f).sil = { s.sil with roads := s.sil.roads.put c (f (s.road c)) } := rfl
@[simp] theorem State.modRoad_tracks (c : Conv) (f : Road → Road) : (s.modRoad c f).tracks = s.tracks := rfl
@[simp] theorem State.modRoad_hwg (c : Conv) (f : Road → Road) : (s.modRoad c f).hwg = s.hwg := rfl
@[simp] theorem State.modRoad_rds (c : Conv) (f : Road → Road) : (s.modRoad c f).rds = s.rds := rfl
@[simp] theorem State.modRoad_ports (c : Conv) (f : Road → Road) : (s.modRoad c f).ports = s.ports := rfl
@[simp] theorem State.modRoad_hls (c : Conv) (f : Road → Road) : (s.modRoad c f).hls = s.hls := rfl

/-! ### `State.modConvoy` -/
@[simp] theorem State.modConvoy_pending (c : Conv) (f : Convoy → Convoy) : (s.modConvoy c f).pending = s.pending := rfl
@[simp] theorem State.modConvoy_now (c : Conv) (f : Convoy → Convoy) : (s.modConvoy c f).now = s.now := rfl
@[simp] theorem State.modConvoy_eventNo (c : Conv) (f : Convoy → Convoy) : (s.modConvoy c f).eventNo = s.eventNo := rfl
@[simp] theorem State.modConvoy_fresh (c : Conv) (f : Convoy → Convoy) : (s.modConvoy c f).fresh = s.fresh := rfl
@[simp] theorem State.modConvoy_raised (c : Conv) (f : Convoy → Convoy) : (s.modConvoy c f).raised = s.raised := rfl
@[simp] theorem State.modConvoy_pins (c : Conv) (f : Convoy → Convoy) : (s.modConvoy c f).pins = s.pins := rfl
@[simp] theorem State.modConvoy_mu (c : Conv) (f : Convoy → Convoy) : (s.modConvoy c f).mu = s.mu := rfl
@[simp] theorem State.modConvoy_dfe (c : Conv) (f : Convoy → Convoy) : (s.modConvoy c f).dfe = s.dfe := rfl
@[simp] theorem State.modConvoy_cvt (c : Conv) (f : Convoy → Convoy) : (s.modConvoy c f).cvt = { s.cvt with convoys := s.cvt.convoys.put c (f (s.convoy c)) } := rfl
@[simp] theorem State.modConvoy_sil (c : Conv) (f : Convoy → Convoy) : (s.modConvoy c f).sil = s.sil := rfl
@[simp] theorem State.modConvoy_tracks (c : Conv) (f : Convoy → Convoy) : (s.modConvoy c f).tracks = s.tracks := rfl
@[simp] theorem State.modConvoy_hwg (c : Conv) (f : Convoy → Convoy) : (s.modConvoy c f).hwg = s.hwg := rfl
@[simp] theorem State.modConvoy_rds (c : Conv) (f : Convoy → Convoy) : (s.modConvoy c f).rds = s.rds := rfl
@[simp] theorem State.modConvoy_ports (c : Conv) (f : Convoy → Convoy) : (s.modConvoy c f).ports = s.ports := rfl
@[simp] theorem State.modConvoy_hls (c : Conv) (f : Convoy → Convoy) : (s.modConvoy c f).hls = s.hls := rfl

/-! ### `State.setUsage` -/
@[simp] theorem State.setUsage_pending (a : Addr) (u : TruckUse) : (s.setUsage a u).pending = s.pending := rfl
@[simp] theorem State.setUsage_now (a : Addr) (u : TruckUse) : (s.setUsage a u).now = s.now := rfl
@[simp] theorem State.setUsage_eventNo (a : Addr) (u : TruckUse) : (s.setUsage a u).eventNo = s.eventNo := rfl
@[simp] theorem State.setUsage_fresh (a : Addr) (u : TruckUse) : (s.setUsage a u).fresh = s.fresh := rfl
@[simp] theorem State.setUsage_raised (a : Addr) (u : TruckUse) : (s.setUsage a u).raised = s.raised := rfl
@[simp] theorem State.setUsage_pins (a : Addr) (u : TruckUse) : (s.setUsage a u).pins = s.pins := rfl
@[simp] theorem State.setUsage_mu (a : Addr) (u : TruckUse) : (s.setUsage a u).mu = s.mu := rfl
@[simp] theorem State.setUsage_dfe (a : Addr) (u : TruckUse) : (s.setUsage a u).dfe = s.dfe := rfl
@[simp] theorem State.setUsage_cvt (a : Addr) (u : TruckUse) : (s.setUsage a u).cvt = { s.cvt with trucks := s.cvt.trucks.put a u } := rfl
@[simp] theorem State.setUsage_sil (a : Addr) (u : TruckUse) : (s.setUsage a u).sil = s.sil := rfl
@[simp] theorem State.setUsage_tracks (a : Addr) (u : TruckUse) : (s.setUsage a u).tracks = s.tracks := rfl
@[simp] theorem State.setUsage_hwg (a : Addr) (u : TruckUse) : (s.setUsage a u).hwg = s.hwg := rfl
@[simp] theorem State.setUsage_rds (a : Addr) (u : TruckUse) : (s.setUsage a u).rds = s.rds := rfl
@[simp] theorem State.setUsage_ports (a : Addr) (u : TruckUse) : (s.setUsage a u).ports = s.ports := rfl
@[simp] theorem State.setUsage_hls (a : Addr) (u : TruckUse) : (s.setUsage a u).hls = s.hls := rfl

/-! ### `State.modTrack` -/
@[simp] theorem State.modTrack_pending (c : Conv) (f : Track → Track) : (s.modTrack c f).pending = s.pending := rfl
@[simp] theorem State.modTrack_now (c : Conv) (f : Track → Track) : (s.modTrack c f).now = s.now := rfl
@[simp] theorem State.modTrack_eventNo (c : Conv) (f : Track → Track) : (s.modTrack c f).eventNo = s.eventNo := rfl
@[simp] theorem State.modTrack_fresh (c : Conv) (f : Track → Track) : (s.modTrack c f).fresh = s.fresh := rfl
@[simp] theorem State.modTrack_raised (c : Conv) (f : Track → Track) : (s.modTrack c f).raised = s.raised := rfl
@[simp] theorem State.modTrack_pins (c : Conv) (f : Track → Track) : (s.modTrack c f).pins = s.pins := rfl
@[simp] theorem State.modTrack_mu (c : Conv) (f : Track → Track) : (s.modTrack c f).mu = s.mu := rfl
@[simp] theorem State.modTrack_dfe (c : Conv) (f : Track → Track) : (s.modTrack c f).dfe = s.dfe := rfl
@[simp] theorem State.modTrack_cvt (c : Conv) (f : Track → Track) : (s.modTrack c f).cvt = s.cvt := rfl
@[simp] theorem State.modTrack_sil (c : Conv) (f : Track → Track) : (s.modTrack c f).sil = s.sil := rfl
@[simp] theorem State.modTrack_tracks (c : Conv) (f : Track → Track) : (s.modTrack c f).tracks = s.tracks.put c (f (s.track c)) := rfl
@[simp] theorem State.modTrack_hwg (c : Conv) (f : Track → Track) : (s.modTrack c f).hwg = s.hwg := rfl
@[simp] theorem State.modTrack_rds (c : Conv) (f : Track → Track) : (s.modTrack c f).rds = s.rds := rfl
@[simp] theorem State.modTrack_ports (c : Conv) (f : Track → Track) : (s.modTrack c f).ports = s.ports := rfl
@[simp] theorem State.modTrack_hls (c : Conv) (f : Track → Track) : (s.modTrack c f).hls = s.hls := rfl

/-! ### `State.modSpeed` -/
@[simp] theorem State.modSpeed_pending (a : Addr) (f : Speed → Speed) : (s.modSpeed a f).pending = s.pending := rfl
@[simp] theorem State.modSpeed_now (a : Addr) (f : Speed → Speed) : (s.modSpeed a f).now = s.now := rfl
@[simp] theorem State.modSpeed_eventNo (a : Addr) (f : Speed → Speed) : (s.modSpeed a f).eventNo = s.eventNo := rfl
@[simp] theorem State.modSpeed_fresh (a : Addr) (f : Speed → Speed) : (s.modSpeed a f).fresh = s.fresh := rfl
@[simp] theorem State.modSpeed_raised (a : Addr) (f : Speed → Speed) : (s.modSpeed a f).raised = s.raised := rfl
@[simp] theorem State.modSpeed_pins (a : Addr) (f : Speed → Speed) : (s.modSpeed a f).pins = s.pins := rfl
@[simp] theorem State.modSpeed_mu (a : Addr) (f : Speed → Speed) : (s.modSpeed a f).mu = s.mu := rfl
@[simp] theorem State.modSpeed_dfe (a : Addr) (f : Speed → Speed) : (s.modSpeed a f).dfe = s.dfe := rfl
@[simp] theorem State.modSpeed_cvt (a : Addr) (f : Speed → Speed) : (s.modSpeed a f).cvt = s.cvt := rfl
@[simp] theorem State.modSpeed_sil (a : Addr) (f : Speed → Speed) : (s.modSpeed a f).sil = s.sil := rfl
@[simp] theorem State.modSpeed_tracks (a : Addr) (f : Speed → Speed) : (s.modSpeed a f).tracks = s.tracks := rfl
@[simp] theorem State.modSpeed_hwg (a : Addr) (f : Speed → Speed) : (s.modSpeed a f).hwg = { s.hwg with speeds := s.hwg.speeds.put a (f (s.speed a)) } := rfl
@[simp] theorem State.modSpeed_rds (a : Addr) (f : Speed → Speed) : (s.modSpeed a f).rds = s.rds := rfl
@[simp] theorem State.modSpeed_ports (a : Addr) (f : Speed → Speed) : (s.modSpeed a f).ports = s.ports := rfl
@[simp] theorem State.modSpeed_hls (a : Addr) (f : Speed → Speed) : (s.modSpeed a f).hls = s.hls := rfl

/-! ### `State.modRadio` -/
@[simp] theorem State.modRadio_pending (a : Addr) (f : RadioTruck → RadioTruck) : (s.modRadio a f).pending = s.pending := rfl
@[simp] theorem State.modRadio_now (a : Addr) (f : RadioTruck → RadioTruck) : (s.modRadio a f).now = s.now := rfl
@[simp] theorem State.modRadio_eventNo (a : Addr) (f : RadioTruck → RadioTruck) : (s.modRadio a f).eventNo = s.eventNo := rfl
@[simp] theorem State.modRadio_fresh (a : Addr) (f : RadioTruck → RadioTruck) : (s.modRadio a f).fresh = s.fresh := rfl
@[simp] theorem State.modRadio_raised (a : Addr) (f : RadioTruck → RadioTruck) : (s.modRadio a f).raised = s.raised := rfl
@[simp] theorem State.modRadio_pins (a : Addr) (f : RadioTruck → RadioTruck) : (s.modRadio a f).pins = s.pins := rfl
@[simp] theorem State.modRadio_mu (a : Addr) (f : RadioTruck → RadioTruck) : (s.modRadio a f).mu = s.mu := rfl
@[simp] theorem State.modRadio_dfe (a : Addr) (f : RadioTruck → RadioTruck) : (s.modRadio a f).dfe = s.dfe := rfl
@[simp] theorem State.modRadio_cvt (a : Addr) (f : RadioTruck → RadioTruck) : (s.modRadio a f).cvt = s.cvt := rfl
@[simp] theorem State.modRadio_sil (a : Addr) (f : RadioTruck → RadioTruck) : (s.modRadio a f).sil = s.sil := rfl
@[simp] theorem State.modRadio_tracks (a : Addr) (f : RadioTruck → RadioTruck) : (s.modRadio a f).tracks = s.tracks := rfl
@[simp] theorem State.modRadio_hwg (a : Addr) (f : RadioTruck → RadioTruck) : (s.modRadio a f).hwg = s.hwg := rfl
@[simp] theorem State.modRadio_rds (a : Addr) (f : RadioTruck → RadioTruck) : (s.modRadio a f).rds = { s.rds with trucks := s.rds.trucks.put a (f (s.radio a)) } := rfl
@[simp] theorem State.modRadio_ports (a : Addr) (f : RadioTruck → RadioTruck) : (s.modRadio a f).ports = s.ports := rfl
@[simp] theorem State.modRadio_hls (a : Addr) (f : RadioTruck → RadioTruck) : (s.modRadio a f).hls = s.hls := rfl

/-! ### `State.modRds` -/
@[simp] theorem State.modRds_pending (f : Dispatcher → Dispatcher) : (s.modRds f).pending = s.pending := rfl
@[simp] theorem State.modRds_now (f : Dispatcher → Dispatcher) : (s.modRds f).now = s.now := rfl
@[simp] theorem State.modRds_eventNo (f : Dispatcher → Dispatcher) : (s.modRds f).eventNo = s.eventNo := rfl
@[simp] theorem State.modRds_fresh (f : Dispatcher → Dispatcher) : (s.modRds f).fresh = s.fresh := rfl
@[simp] theorem State.modRds_raised (f : Dispatcher → Dispatcher) : (s.modRds f).raised = s.raised := rfl
@[simp] theorem State.modRds_pins (f : Dispatcher → Dispatcher) : (s.modRds f).pins = s.pins := rfl
@[simp] theorem State.modRds_mu (f : Dispatcher → Dispatcher) : (s.modRds f).mu = s.mu := rfl
@[simp] theorem State.modRds_dfe (f : Dispatcher → Dispatcher) : (s.modRds f).dfe = s.dfe := rfl
@[simp] theorem State.modRds_cvt (f : Dispatcher → Dispatcher) : (s.modRds f).cvt = s.cvt := rfl
@[simp] theorem State.modRds_sil (f : Dispatcher → Dispatcher) : (s.modRds f).sil = s.sil := rfl
@[simp] theorem State.modRds_tracks (f : Dispatcher → Dispatcher) : (s.modRds f).tracks = s.tracks := rfl
@[simp] theorem State.modRds_hwg (f : Dispatcher → Dispatcher) : (s.modRds f).hwg = s.hwg := rfl
@[simp] theorem State.modRds_rds (f : Dispatcher → Dispatcher) : (s.modRds f).rds = f s.rds := rfl
@[simp] theorem State.modRds_ports (f : Dispatcher → Dispatcher) : (s.modRds f).ports = s.ports := rfl
@[simp] theorem State.modRds_hls (f : Dispatcher → Dispatcher) : (s.modRds f).hls = s.hls := rfl

/-! ### `State.modPort` -/
@[simp] theorem State.modPort_pending (p : Port) (f : PortState → PortState) : (s.modPort p f).pending = s.pending := rfl
@[simp] theorem State.modPort_now (p : Port) (f : PortState → PortState) : (s.modPort p f).now = s.now := rfl
@[simp] theorem State.modPort_eventNo (p : Port) (f : PortState → PortState) : (s.modPort p f).eventNo = s.eventNo := rfl
@[simp] theorem State.modPort_fresh (p : Port) (f : PortState → PortState) : (s.modPort p f).fresh = s.fresh := rfl
@[simp] theorem State.modPort_raised (p : Port) (f : PortState → PortState) : (s.modPort p f).raised = s.raised := rfl
@[simp] theorem State.modPort_pins (p : Port) (f : PortState → PortState) : (s.modPort p f).pins = s.pins := rfl
@[simp] theorem State.modPort_mu (p : Port) (f : PortState → PortState) : (s.modPort p f).mu = s.mu := rfl
@[simp] theorem State.modPort_dfe (p : Port) (f : PortState → PortState) : (s.modPort p f).dfe = s.dfe := rfl
@[simp] theorem State.modPort_cvt (p : Port) (f : PortState → PortState) : (s.modPort p f).cvt = s.cvt := rfl
@[simp] theorem State.modPort_sil (p : Port) (f : PortState → PortState) : (s.modPort p f).sil = s.sil := rfl
@[simp] theorem State.modPort_tracks (p : Port) (f : PortState → PortState) : (s.modPort p f).tracks = s.tracks := rfl
@[simp] theorem State.modPort_hwg (p : Port) (f : PortState → PortState) : (s.modPort p f).hwg = s.hwg := rfl
@[simp] theorem State.modPort_rds (p : Port) (f : PortState → PortState) : (s.modPort p f).rds = s.rds := rfl
@[simp] theorem State.modPort_ports (p : Port) (f : PortState → PortState) : (s.modPort p f).ports = s.ports.put p (f (s.port p)) := rfl
@[simp] theorem State.modPort_hls (p : Port) (f : PortState → PortState) : (s.modPort p f).hls = s.hls := rfl

/-! ### `State.modInput` -/
@[simp] theorem State.modInput_pending (d : Inp) (f : Input → Input) : (s.modInput d f).pending = s.pending := rfl
@[simp] theorem State.modInput_now (d : Inp) (f : Input → Input) : (s.modInput d f).now = s.now := rfl
@[simp] theorem State.modInput_eventNo (d : Inp) (f : Input → Input) : (s.modInput d f).eventNo = s.eventNo := rfl
@[simp] theorem State.modInput_fresh (d : Inp) (f : Input → Input) : (s.modInput d f).fresh = s.fresh := rfl
@[simp] theorem State.modInput_raised (d : Inp) (f : Input → Input) : (s.modInput d f).raised = s.raised := rfl
@[simp] theorem State.modInput_pins (d : Inp) (f : Input → Input) : (s.modInput d f).pins = s.pins := rfl
@[simp] theorem State.modInput_mu (d : Inp) (f : Input → Input) : (s.modInput d f).mu = s.mu := rfl
@[simp] theorem State.modInput_dfe (d : Inp) (f : Input → Input) : (s.modInput d f).dfe = { s.dfe with inputs := s.dfe.inputs.put d (f (s.input d)) } := rfl
@[simp] theorem State.modInput_cvt (d : Inp) (f : Input → Input) : (s.modInput d f).cvt = s.cvt := rfl
@[simp] theorem State.modInput_sil (d : Inp) (f : Input → Input) : (s.modInput d f).sil = s.sil := rfl
@[simp] theorem State.modInput_tracks (d : Inp) (f : Input → Input) : (s.modInput d f).tracks = s.tracks := rfl
@[simp] theorem State.modInput_hwg (d : Inp) (f : Input → Input) : (s.modInput d f).hwg = s.hwg := rfl
@[simp] theorem State.modInput_rds (d : Inp) (f : Input → Input) : (s.modInput d f).rds = s.rds := rfl
@[simp] theorem State.modInput_ports (d : Inp) (f : Input → Input) : (s.modInput d f).ports = s.ports := rfl
@[simp] theorem State.modInput_hls (d : Inp) (f : Input → Input) : (s.modInput d f).hls = s.hls := rfl

/-! ### `State.modHls` -/
@[simp] theorem State.modHls_pending (f : HaltSupervisor → HaltSupervisor) : (s.modHls f).pending = s.pending := rfl
@[simp] theorem State.modHls_now (f : HaltSupervisor → HaltSupervisor) : (s.modHls f).now = s.now := rfl
@[simp] theorem State.modHls_eventNo (f : HaltSupervisor → HaltSupervisor) : (s.modHls f).eventNo = s.eventNo := rfl
@[simp] theorem State.modHls_fresh (f : HaltSupervisor → HaltSupervisor) : (s.modHls f).fresh = s.fresh := rfl
@[simp] theorem State.modHls_raised (f : HaltSupervisor → HaltSupervisor) : (s.modHls f).raised = s.raised := rfl
@[simp] theorem State.modHls_pins (f : HaltSupervisor → HaltSupervisor) : (s.modHls f).pins = s.pins := rfl
@[simp] theorem State.modHls_mu (f : HaltSupervisor → HaltSupervisor) : (s.modHls f).mu = s.mu := rfl
@[simp] theorem State.modHls_dfe (f : HaltSupervisor → HaltSupervisor) : (s.modHls f).dfe = s.dfe := rfl
@[simp] theorem State.modHls_cvt (f : HaltSupervisor → HaltSupervisor) : (s.modHls f).cvt = s.cvt := rfl
@[simp] theorem State.modHls_sil (f : HaltSupervisor → HaltSupervisor) : (s.modHls f).sil = s.sil := rfl
@[simp] theorem State.modHls_tracks (f : HaltSupervisor → HaltSupervisor) : (s.modHls f).tracks = s.tracks := rfl
@[simp] theorem State.modHls_hwg (f : HaltSupervisor → HaltSupervisor) : (s.modHls f).hwg = s.hwg := rfl
@[simp] theorem State.modHls_rds (f : HaltSupervisor → HaltSupervisor) : (s.modHls f).rds = s.rds := rfl
@[simp] theorem State.modHls_ports (f : HaltSupervisor → HaltSupervisor) : (s.modHls f).ports = s.ports := rfl
@[simp] theorem State.modHls_hls (f : HaltSupervisor → HaltSupervisor) : (s.modHls f).hls = f s.hls := rfl

/-! ### `State.modMu` -/
@[simp] theorem State.modMu_pending (f : MapUnit → MapUnit) : (s.modMu f).pending = s.pending := rfl
@[simp] theorem State.modMu_now (f : MapUnit → MapUnit) : (s.modMu f).now = s.now := rfl
@[simp] theorem State.modMu_eventNo (f : MapUnit → MapUnit) : (s.modMu f).eventNo = s.eventNo := rfl
@[simp] theorem State.modMu_fresh (f : MapUnit → MapUnit) : (s.modMu f).fresh = s.fresh := rfl
@[simp] theorem State.modMu_raised (f : MapUnit → MapUnit) : (s.modMu f).raised = s.raised := rfl
@[simp] theorem State.modMu_pins (f : MapUnit → MapUnit) : (s.modMu f).pins = s.pins := rfl
@[simp] theorem State.modMu_mu (f : MapUnit → MapUnit) : (s.modMu f).mu = f s.mu := rfl
@[simp] theorem State.modMu_dfe (f : MapUnit → MapUnit) : (s.modMu f).dfe = s.dfe := rfl
@[simp] theorem State.modMu_cvt (f : MapUnit → MapUnit) : (s.modMu f).cvt = s.cvt := rfl
@[simp] theorem State.modMu_sil (f : MapUnit → MapUnit) : (s.modMu f).sil = s.sil := rfl
@[simp] theorem State.modMu_tracks (f : MapUnit → MapUnit) : (s.modMu f).tracks = s.tracks := rfl
@[simp] theorem State.modMu_hwg (f : MapUnit → MapUnit) : (s.modMu f).hwg = s.hwg := rfl
@[simp] theorem State.modMu_rds (f : MapUnit → MapUnit) : (s.modMu f).rds = s.rds := rfl
@[simp] theorem State.modMu_ports (f : MapUnit → MapUnit) : (s.modMu f).ports = s.ports := rfl
@[simp] theorem State.modMu_hls (f : MapUnit → MapUnit) : (s.modMu f).hls = s.hls := rfl

/-! ### `State.raise` -/
@[simp] theorem State.raise_pending (n : Notice) (who : Audience) : (s.raise n who).pending = s.pending := rfl
@[simp] theorem State.raise_now (n : Notice) (who : Audience) : (s.raise n who).now = s.now := rfl
@[simp] theorem State.raise_eventNo (n : Notice) (who : Audience) : (s.raise n who).eventNo = s.eventNo := rfl
@[simp] theorem State.raise_fresh (n : Notice) (who : Audience) : (s.raise n who).fresh = s.fresh := rfl
@[simp] theorem State.raise_raised (n : Notice) (who : Audience) : (s.raise n who).raised = s.raised ++ [⟨n, s.recipients who⟩] := rfl
@[simp] theorem State.raise_pins (n : Notice) (who : Audience) : (s.raise n who).pins = s.pins := rfl
@[simp] theorem State.raise_mu (n : Notice) (who : Audience) : (s.raise n who).mu = s.mu := rfl
@[simp] theorem State.raise_dfe (n : Notice) (who : Audience) : (s.raise n who).dfe = s.dfe := rfl
@[simp] theorem State.raise_cvt (n : Notice) (who : Audience) : (s.raise n who).cvt = s.cvt := rfl
@[simp] theorem State.raise_sil (n : Notice) (who : Audience) : (s.raise n who).sil = s.sil := rfl
@[simp] theorem State.raise_tracks (n : Notice) (who : Audience) : (s.raise n who).tracks = s.tracks := rfl
@[simp] theorem State.raise_hwg (n : Notice) (who : Audience) : (s.raise n who).hwg = s.hwg := rfl
@[simp] theorem State.raise_rds (n : Notice) (who : Audience) : (s.raise n who).rds = s.rds := rfl
@[simp] theorem State.raise_ports (n : Notice) (who : Audience) : (s.raise n who).ports = s.ports := rfl
@[simp] theorem State.raise_hls (n : Notice) (who : Audience) : (s.raise n who).hls = s.hls := rfl

/-! ### What the accessors read -/
theorem State.sec_modSec (x y : Sec) (f : Section → Section) : (s.modSec x f).sec y = if y = x then f (s.sec x) else s.sec y :=
  tab_nth_put _ _ _ _
@[simp] theorem State.sec_modSec_self (x : Sec) (f : Section → Section) : (s.modSec x f).sec x = f (s.sec x) := tab_nth_put_self _ _ _
@[simp] theorem State.sec_modSec_ne {x y : Sec} (f : Section → Section) (h : y ≠ x) : (s.modSec x f).sec y = s.sec y :=
  tab_nth_put_ne _ _ h
theorem State.grp_modGrp (x y : Grp) (f : Group → Group) : (s.modGrp x f).grp y = if y = x then f (s.grp x) else s.grp y :=
  tab_nth_put _ _ _ _
@[simp] theorem State.grp_modGrp_self (x : Grp) (f : Group → Group) : (s.modGrp x f).grp x = f (s.grp x) := tab_nth_put_self _ _ _
@[simp] theorem State.grp_modGrp_ne {x y : Grp} (f : Group → Group) (h : y ≠ x) : (s.modGrp x f).grp y = s.grp y :=
  tab_nth_put_ne _ _ h
theorem State.road_modRoad (x y : Conv) (f : Road → Road) : (s.modRoad x f).road y = if y = x then f (s.road x) else s.road y :=
  tab_nth_put _ _ _ _
@[simp] theorem State.road_modRoad_self (x : Conv) (f : Road → Road) : (s.modRoad x f).road x = f (s.road x) := tab_nth_put_self _ _ _
@[simp] theorem State.road_modRoad_ne {x y : Conv} (f : Road → Road) (h : y ≠ x) : (s.modRoad x f).road y = s.road y :=
  tab_nth_put_ne _ _ h
theorem State.convoy_modConvoy (x y : Conv) (f : Convoy → Convoy) : (s.modConvoy x f).convoy y = if y = x then f (s.convoy x) else s.convoy y :=
  tab_nth_put _ _ _ _
@[simp] theorem State.convoy_modConvoy_self (x : Conv) (f : Convoy → Convoy) : (s.modConvoy x f).convoy x = f (s.convoy x) := tab_nth_put_self _ _ _
@[simp] theorem State.convoy_modConvoy_ne {x y : Conv} (f : Convoy → Convoy) (h : y ≠ x) : (s.modConvoy x f).convoy y = s.convoy y :=
  tab_nth_put_ne _ _ h
theorem State.usage_setUsage (x y : Addr) (u : TruckUse) : (s.setUsage x u).usage y = if y = x then u else s.usage y :=
  tab_nth_put _ _ _ _
@[simp] theorem State.usage_setUsage_self (x : Addr) (u : TruckUse) : (s.setUsage x u).usage x = u := tab_nth_put_self _ _ _
@[simp] theorem State.usage_setUsage_ne {x y : Addr} (u : TruckUse) (h : y ≠ x) : (s.setUsage x u).usage y = s.usage y :=
  tab_nth_put_ne _ _ h
theorem State.track_modTrack (x y : Conv) (f : Track → Track) : (s.modTrack x f).track y = if y = x then f (s.track x) else s.track y :=
  tab_nth_put _ _ _ _
@[simp] theorem State.track_modTrack_self (x : Conv) (f : Track → Track) : (s.modTrack x f).track x = f (s.track x) := tab_nth_put_self _ _ _
@[simp] theorem State.track_modTrack_ne {x y : Conv} (f : Track → Track) (h : y ≠ x) : (s.modTrack x f).track y = s.track y :=
  tab_nth_put_ne _ _ h
theorem State.speed_modSpeed (x y : Addr) (f : Speed → Speed) : (s.modSpeed x f).speed y = if y = x then f (s.speed x) else s.speed y :=
  tab_nth_put _ _ _ _
@[simp] theorem State.speed_modSpeed_self (x : Addr) (f : Speed → Speed) : (s.modSpeed x f).speed x = f (s.speed x) := tab_nth_put_self _ _ _
@[simp] theorem State.speed_modSpeed_ne {x y : Addr} (f : Speed → Speed) (h : y ≠ x) : (s.modSpeed x f).speed y = s.speed y :=
  tab_nth_put_ne _ _ h
theorem State.radio_modRadio (x y : Addr) (f : RadioTruck → RadioTruck) : (s.modRadio x f).radio y = if y = x then f (s.radio x) else s.radio y :=
  tab_nth_put _ _ _ _
@[simp] theorem State.radio_modRadio_self (x : Addr) (f : RadioTruck → RadioTruck) : (s.modRadio x f).radio x = f (s.radio x) := tab_nth_put_self _ _ _
@[simp] theorem State.radio_modRadio_ne {x y : Addr} (f : RadioTruck → RadioTruck) (h : y ≠ x) : (s.modRadio x f).radio y = s.radio y :=
  tab_nth_put_ne _ _ h
theorem State.input_modInput (x y : Inp) (f : Input → Input) : (s.modInput x f).input y = if y = x then f (s.input x) else s.input y :=
  tab_nth_put _ _ _ _
@[simp] theorem State.input_modInput_self (x : Inp) (f : Input → Input) : (s.modInput x f).input x = f (s.input x) := tab_nth_put_self _ _ _
@[simp] theorem State.input_modInput_ne {x y : Inp} (f : Input → Input) (h : y ≠ x) : (s.modInput x f).input y = s.input y :=
  tab_nth_put_ne _ _ h
theorem State.port_modPort (x y : Port) (f : PortState → PortState) : (s.modPort x f).port y = if y = x then f (s.port x) else s.port y :=
  perPort_nth_put _ _ _ _
@[simp] theorem State.port_modPort_self (x : Port) (f : PortState → PortState) : (s.modPort x f).port x = f (s.port x) := perPort_nth_put_self _ _ _
@[simp] theorem State.port_modPort_ne {x y : Port} (f : PortState → PortState) (h : y ≠ x) : (s.modPort x f).port y = s.port y :=
  perPort_nth_put_ne _ _ h
@[simp] theorem State.sec_setMap (m : LayoutMap) (y : Sec) : (s.setMap m).sec y = s.sec y := rfl
@[simp] theorem State.sec_modGrp (g : Grp) (f : Group → Group) (y : Sec) : (s.modGrp g f).sec y = s.sec y := rfl
@[simp] theorem State.sec_modRoad (c : Conv) (f : Road → Road) (y : Sec) : (s.modRoad c f).sec y = s.sec y := rfl
@[simp] theorem State.sec_modConvoy (c : Conv) (f : Convoy → Convoy) (y : Sec) : (s.modConvoy c f).sec y = s.sec y := rfl
@[simp] theorem State.sec_setUsage (a : Addr) (u : TruckUse) (y : Sec) : (s.setUsage a u).sec y = s.sec y := rfl
@[simp] theorem State.sec_modTrack (c : Conv) (f : Track → Track) (y : Sec) : (s.modTrack c f).sec y = s.sec y := rfl
@[simp] theorem State.sec_modSpeed (a : Addr) (f : Speed → Speed) (y : Sec) : (s.modSpeed a f).sec y = s.sec y := rfl
@[simp] theorem State.sec_modRadio (a : Addr) (f : RadioTruck → RadioTruck) (y : Sec) : (s.modRadio a f).sec y = s.sec y := rfl
@[simp] theorem State.sec_modRds (f : Dispatcher → Dispatcher) (y : Sec) : (s.modRds f).sec y = s.sec y := rfl
@[simp] theorem State.sec_modPort (p : Port) (f : PortState → PortState) (y : Sec) : (s.modPort p f).sec y = s.sec y := rfl
@[simp] theorem State.sec_modInput (d : Inp) (f : Input → Input) (y : Sec) : (s.modInput d f).sec y = s.sec y := rfl
@[simp] theorem State.sec_modHls (f : HaltSupervisor → HaltSupervisor) (y : Sec) : (s.modHls f).sec y = s.sec y := rfl
@[simp] theorem State.sec_modMu (f : MapUnit → MapUnit) (y : Sec) : (s.modMu f).sec y = s.sec y := rfl
@[simp] theorem State.sec_raise (n : Notice) (who : Audience) (y : Sec) : (s.raise n who).sec y = s.sec y := rfl
@[simp] theorem State.grp_setMap (m : LayoutMap) (y : Grp) : (s.setMap m).grp y = s.grp y := rfl
@[simp] theorem State.grp_modSec (x : Sec) (f : Section → Section) (y : Grp) : (s.modSec x f).grp y = s.grp y := rfl
@[simp] theorem State.grp_modRoad (c : Conv) (f : Road → Road) (y : Grp) : (s.modRoad c f).grp y = s.grp y := rfl
@[simp] theorem State.grp_modConvoy (c : Conv) (f : Convoy → Convoy) (y : Grp) : (s.modConvoy c f).grp y = s.grp y := rfl
@[simp] theorem State.grp_setUsage (a : Addr) (u : TruckUse) (y : Grp) : (s.setUsage a u).grp y = s.grp y := rfl
@[simp] theorem State.grp_modTrack (c : Conv) (f : Track → Track) (y : Grp) : (s.modTrack c f).grp y = s.grp y := rfl
@[simp] theorem State.grp_modSpeed (a : Addr) (f : Speed → Speed) (y : Grp) : (s.modSpeed a f).grp y = s.grp y := rfl
@[simp] theorem State.grp_modRadio (a : Addr) (f : RadioTruck → RadioTruck) (y : Grp) : (s.modRadio a f).grp y = s.grp y := rfl
@[simp] theorem State.grp_modRds (f : Dispatcher → Dispatcher) (y : Grp) : (s.modRds f).grp y = s.grp y := rfl
@[simp] theorem State.grp_modPort (p : Port) (f : PortState → PortState) (y : Grp) : (s.modPort p f).grp y = s.grp y := rfl
@[simp] theorem State.grp_modInput (d : Inp) (f : Input → Input) (y : Grp) : (s.modInput d f).grp y = s.grp y := rfl
@[simp] theorem State.grp_modHls (f : HaltSupervisor → HaltSupervisor) (y : Grp) : (s.modHls f).grp y = s.grp y := rfl
@[simp] theorem State.grp_modMu (f : MapUnit → MapUnit) (y : Grp) : (s.modMu f).grp y = s.grp y := rfl
@[simp] theorem State.grp_raise (n : Notice) (who : Audience) (y : Grp) : (s.raise n who).grp y = s.grp y := rfl
@[simp] theorem State.road_setMap (m : LayoutMap) (y : Conv) : (s.setMap m).road y = s.road y := rfl
@[simp] theorem State.road_modSec (x : Sec) (f : Section → Section) (y : Conv) : (s.modSec x f).road y = s.road y := rfl
@[simp] theorem State.road_modGrp (g : Grp) (f : Group → Group) (y : Conv) : (s.modGrp g f).road y = s.road y := rfl
@[simp] theorem State.road_modConvoy (c : Conv) (f : Convoy → Convoy) (y : Conv) : (s.modConvoy c f).road y = s.road y := rfl
@[simp] theorem State.road_setUsage (a : Addr) (u : TruckUse) (y : Conv) : (s.setUsage a u).road y = s.road y := rfl
@[simp] theorem State.road_modTrack (c : Conv) (f : Track → Track) (y : Conv) : (s.modTrack c f).road y = s.road y := rfl
@[simp] theorem State.road_modSpeed (a : Addr) (f : Speed → Speed) (y : Conv) : (s.modSpeed a f).road y = s.road y := rfl
@[simp] theorem State.road_modRadio (a : Addr) (f : RadioTruck → RadioTruck) (y : Conv) : (s.modRadio a f).road y = s.road y := rfl
@[simp] theorem State.road_modRds (f : Dispatcher → Dispatcher) (y : Conv) : (s.modRds f).road y = s.road y := rfl
@[simp] theorem State.road_modPort (p : Port) (f : PortState → PortState) (y : Conv) : (s.modPort p f).road y = s.road y := rfl
@[simp] theorem State.road_modInput (d : Inp) (f : Input → Input) (y : Conv) : (s.modInput d f).road y = s.road y := rfl
@[simp] theorem State.road_modHls (f : HaltSupervisor → HaltSupervisor) (y : Conv) : (s.modHls f).road y = s.road y := rfl
@[simp] theorem State.road_modMu (f : MapUnit → MapUnit) (y : Conv) : (s.modMu f).road y = s.road y := rfl
@[simp] theorem State.road_raise (n : Notice) (who : Audience) (y : Conv) : (s.raise n who).road y = s.road y := rfl
@[simp] theorem State.convoy_setMap (m : LayoutMap) (y : Conv) : (s.setMap m).convoy y = s.convoy y := rfl
@[simp] theorem State.convoy_modSec (x : Sec) (f : Section → Section) (y : Conv) : (s.modSec x f).convoy y = s.convoy y := rfl
@[simp] theorem State.convoy_modGrp (g : Grp) (f : Group → Group) (y : Conv) : (s.modGrp g f).convoy y = s.convoy y := rfl
@[simp] theorem State.convoy_modRoad (c : Conv) (f : Road → Road) (y : Conv) : (s.modRoad c f).convoy y = s.convoy y := rfl
@[simp] theorem State.convoy_setUsage (a : Addr) (u : TruckUse) (y : Conv) : (s.setUsage a u).convoy y = s.convoy y := rfl
@[simp] theorem State.convoy_modTrack (c : Conv) (f : Track → Track) (y : Conv) : (s.modTrack c f).convoy y = s.convoy y := rfl
@[simp] theorem State.convoy_modSpeed (a : Addr) (f : Speed → Speed) (y : Conv) : (s.modSpeed a f).convoy y = s.convoy y := rfl
@[simp] theorem State.convoy_modRadio (a : Addr) (f : RadioTruck → RadioTruck) (y : Conv) : (s.modRadio a f).convoy y = s.convoy y := rfl
@[simp] theorem State.convoy_modRds (f : Dispatcher → Dispatcher) (y : Conv) : (s.modRds f).convoy y = s.convoy y := rfl
@[simp] theorem State.convoy_modPort (p : Port) (f : PortState → PortState) (y : Conv) : (s.modPort p f).convoy y = s.convoy y := rfl
@[simp] theorem State.convoy_modInput (d : Inp) (f : Input → Input) (y : Conv) : (s.modInput d f).convoy y = s.convoy y := rfl
@[simp] theorem State.convoy_modHls (f : HaltSupervisor → HaltSupervisor) (y : Conv) : (s.modHls f).convoy y = s.convoy y := rfl
@[simp] theorem State.convoy_modMu (f : MapUnit → MapUnit) (y : Conv) : (s.modMu f).convoy y = s.convoy y := rfl
@[simp] theorem State.convoy_raise (n : Notice) (who : Audience) (y : Conv) : (s.raise n who).convoy y = s.convoy y := rfl
@[simp] theorem State.usage_setMap (m : LayoutMap) (y : Addr) : (s.setMap m).usage y = s.usage y := rfl
@[simp] theorem State.usage_modSec (x : Sec) (f : Section → Section) (y : Addr) : (s.modSec x f).usage y = s.usage y := rfl
@[simp] theorem State.usage_modGrp (g : Grp) (f : Group → Group) (y : Addr) : (s.modGrp g f).usage y = s.usage y := rfl
@[simp] theorem State.usage_modRoad (c : Conv) (f : Road → Road) (y : Addr) : (s.modRoad c f).usage y = s.usage y := rfl
@[simp] theorem State.usage_modConvoy (c : Conv) (f : Convoy → Convoy) (y : Addr) : (s.modConvoy c f).usage y = s.usage y := rfl
@[simp] theorem State.usage_modTrack (c : Conv) (f : Track → Track) (y : Addr) : (s.modTrack c f).usage y = s.usage y := rfl
@[simp] theorem State.usage_modSpeed (a : Addr) (f : Speed → Speed) (y : Addr) : (s.modSpeed a f).usage y = s.usage y := rfl
@[simp] theorem State.usage_modRadio (a : Addr) (f : RadioTruck → RadioTruck) (y : Addr) : (s.modRadio a f).usage y = s.usage y := rfl
@[simp] theorem State.usage_modRds (f : Dispatcher → Dispatcher) (y : Addr) : (s.modRds f).usage y = s.usage y := rfl
@[simp] theorem State.usage_modPort (p : Port) (f : PortState → PortState) (y : Addr) : (s.modPort p f).usage y = s.usage y := rfl
@[simp] theorem State.usage_modInput (d : Inp) (f : Input → Input) (y : Addr) : (s.modInput d f).usage y = s.usage y := rfl
@[simp] theorem State.usage_modHls (f : HaltSupervisor → HaltSupervisor) (y : Addr) : (s.modHls f).usage y = s.usage y := rfl
@[simp] theorem State.usage_modMu (f : MapUnit → MapUnit) (y : Addr) : (s.modMu f).usage y = s.usage y := rfl
@[simp] theorem State.usage_raise (n : Notice) (who : Audience) (y : Addr) : (s.raise n who).usage y = s.usage y := rfl
@[simp] theorem State.track_setMap (m : LayoutMap) (y : Conv) : (s.setMap m).track y = s.track y := rfl
@[simp] theorem State.track_modSec (x : Sec) (f : Section → Section) (y : Conv) : (s.modSec x f).track y = s.track y := rfl
@[simp] theorem State.track_modGrp (g : Grp) (f : Group → Group) (y : Conv) : (s.modGrp g f).track y = s.track y := rfl
@[simp] theorem State.track_modRoad (c : Conv) (f : Road → Road) (y : Conv) : (s.modRoad c f).track y = s.track y := rfl
@[simp] theorem State.track_modConvoy (c : Conv) (f : Convoy → Convoy) (y : Conv) : (s.modConvoy c f).track y = s.track y := rfl
@[simp] theorem State.track_setUsage (a : Addr) (u : TruckUse) (y : Conv) : (s.setUsage a u).track y = s.track y := rfl
@[simp] theorem State.track_modSpeed (a : Addr) (f : Speed → Speed) (y : Conv) : (s.modSpeed a f).track y = s.track y := rfl
@[simp] theorem State.track_modRadio (a : Addr) (f : RadioTruck → RadioTruck) (y : Conv) : (s.modRadio a f).track y = s.track y := rfl
@[simp] theorem State.track_modRds (f : Dispatcher → Dispatcher) (y : Conv) : (s.modRds f).track y = s.track y := rfl
@[simp] theorem State.track_modPort (p : Port) (f : PortState → PortState) (y : Conv) : (s.modPort p f).track y = s.track y := rfl
@[simp] theorem State.track_modInput (d : Inp) (f : Input → Input) (y : Conv) : (s.modInput d f).track y = s.track y := rfl
@[simp] theorem State.track_modHls (f : HaltSupervisor → HaltSupervisor) (y : Conv) : (s.modHls f).track y = s.track y := rfl
@[simp] theorem State.track_modMu (f : MapUnit → MapUnit) (y : Conv) : (s.modMu f).track y = s.track y := rfl
@[simp] theorem State.track_raise (n : Notice) (who : Audience) (y : Conv) : (s.raise n who).track y = s.track y := rfl
@[simp] theorem State.speed_setMap (m : LayoutMap) (y : Addr) : (s.setMap m).speed y = s.speed y := rfl
@[simp] theorem State.speed_modSec (x : Sec) (f : Section → Section) (y : Addr) : (s.modSec x f).speed y = s.speed y := rfl
@[simp] theorem State.speed_modGrp (g : Grp) (f : Group → Group) (y : Addr) : (s.modGrp g f).speed y = s.speed y := rfl
@[simp] theorem State.speed_modRoad (c : Conv) (f : Road → Road) (y : Addr) : (s.modRoad c f).speed y = s.speed y := rfl
@[simp] theorem State.speed_modConvoy (c : Conv) (f : Convoy → Convoy) (y : Addr) : (s.modConvoy c f).speed y = s.speed y := rfl
@[simp] theorem State.speed_setUsage (a : Addr) (u : TruckUse) (y : Addr) : (s.setUsage a u).speed y = s.speed y := rfl
@[simp] theorem State.speed_modTrack (c : Conv) (f : Track → Track) (y : Addr) : (s.modTrack c f).speed y = s.speed y := rfl
@[simp] theorem State.speed_modRadio (a : Addr) (f : RadioTruck → RadioTruck) (y : Addr) : (s.modRadio a f).speed y = s.speed y := rfl
@[simp] theorem State.speed_modRds (f : Dispatcher → Dispatcher) (y : Addr) : (s.modRds f).speed y = s.speed y := rfl
@[simp] theorem State.speed_modPort (p : Port) (f : PortState → PortState) (y : Addr) : (s.modPort p f).speed y = s.speed y := rfl
@[simp] theorem State.speed_modInput (d : Inp) (f : Input → Input) (y : Addr) : (s.modInput d f).speed y = s.speed y := rfl
@[simp] theorem State.speed_modHls (f : HaltSupervisor → HaltSupervisor) (y : Addr) : (s.modHls f).speed y = s.speed y := rfl
@[simp] theorem State.speed_modMu (f : MapUnit → MapUnit) (y : Addr) : (s.modMu f).speed y = s.speed y := rfl
@[simp] theorem State.speed_raise (n : Notice) (who : Audience) (y : Addr) : (s.raise n who).speed y = s.speed y := rfl
@[simp] theorem State.radio_setMap (m : LayoutMap) (y : Addr) : (s.setMap m).radio y = s.radio y := rfl
@[simp] theorem State.radio_modSec (x : Sec) (f : Section → Section) (y : Addr) : (s.modSec x f).radio y = s.radio y := rfl
@[simp] theorem State.radio_modGrp (g : Grp) (f : Group → Group) (y : Addr) : (s.modGrp g f).radio y = s.radio y := rfl
@[simp] theorem State.radio_modRoad (c : Conv) (f : Road → Road) (y : Addr) : (s.modRoad c f).radio y = s.radio y := rfl
@[simp] theorem State.radio_modConvoy (c : Conv) (f : Convoy → Convoy) (y : Addr) : (s.modConvoy c f).radio y = s.radio y := rfl
@[simp] theorem State.radio_setUsage (a : Addr) (u : TruckUse) (y : Addr) : (s.setUsage a u).radio y = s.radio y := rfl
@[simp] theorem State.radio_modTrack (c : Conv) (f : Track → Track) (y : Addr) : (s.modTrack c f).radio y = s.radio y := rfl
@[simp] theorem State.radio_modSpeed (a : Addr) (f : Speed → Speed) (y : Addr) : (s.modSpeed a f).radio y = s.radio y := rfl
@[simp] theorem State.radio_modPort (p : Port) (f : PortState → PortState) (y : Addr) : (s.modPort p f).radio y = s.radio y := rfl
@[simp] theorem State.radio_modInput (d : Inp) (f : Input → Input) (y : Addr) : (s.modInput d f).radio y = s.radio y := rfl
@[simp] theorem State.radio_modHls (f : HaltSupervisor → HaltSupervisor) (y : Addr) : (s.modHls f).radio y = s.radio y := rfl
@[simp] theorem State.radio_modMu (f : MapUnit → MapUnit) (y : Addr) : (s.modMu f).radio y = s.radio y := rfl
@[simp] theorem State.radio_raise (n : Notice) (who : Audience) (y : Addr) : (s.raise n who).radio y = s.radio y := rfl
@[simp] theorem State.input_setMap (m : LayoutMap) (y : Inp) : (s.setMap m).input y = s.input y := rfl
@[simp] theorem State.input_modSec (x : Sec) (f : Section → Section) (y : Inp) : (s.modSec x f).input y = s.input y := rfl
@[simp] theorem State.input_modGrp (g : Grp) (f : Group → Group) (y : Inp) : (s.modGrp g f).input y = s.input y := rfl
@[simp] theorem State.input_modRoad (c : Conv) (f : Road → Road) (y : Inp) : (s.modRoad c f).input y = s.input y := rfl
@[simp] theorem State.input_modConvoy (c : Conv) (f : Convoy → Convoy) (y : Inp) : (s.modConvoy c f).input y = s.input y := rfl
@[simp] theorem State.input_setUsage (a : Addr) (u : TruckUse) (y : Inp) : (s.setUsage a u).input y = s.input y := rfl
@[simp] theorem State.input_modTrack (c : Conv) (f : Track → Track) (y : Inp) : (s.modTrack c f).input y = s.input y := rfl
@[simp] theorem State.input_modSpeed (a : Addr) (f : Speed → Speed) (y : Inp) : (s.modSpeed a f).input y = s.input y := rfl
@[simp] theorem State.input_modRadio (a : Addr) (f : RadioTruck → RadioTruck) (y : Inp) : (s.modRadio a f).input y = s.input y := rfl
@[simp] theorem State.input_modRds (f : Dispatcher → Dispatcher) (y : Inp) : (s.modRds f).input y = s.input y := rfl
@[simp] theorem State.input_modPort (p : Port) (f : PortState → PortState) (y : Inp) : (s.modPort p f).input y = s.input y := rfl
@[simp] theorem State.input_modHls (f : HaltSupervisor → HaltSupervisor) (y : Inp) : (s.modHls f).input y = s.input y := rfl
@[simp] theorem State.input_modMu (f : MapUnit → MapUnit) (y : Inp) : (s.modMu f).input y = s.input y := rfl
@[simp] theorem State.input_raise (n : Notice) (who : Audience) (y : Inp) : (s.raise n who).input y = s.input y := rfl
@[simp] theorem State.port_setMap (m : LayoutMap) (y : Port) : (s.setMap m).port y = s.port y := rfl
@[simp] theorem State.port_modSec (x : Sec) (f : Section → Section) (y : Port) : (s.modSec x f).port y = s.port y := rfl
@[simp] theorem State.port_modGrp (g : Grp) (f : Group → Group) (y : Port) : (s.modGrp g f).port y = s.port y := rfl
@[simp] theorem State.port_modRoad (c : Conv) (f : Road → Road) (y : Port) : (s.modRoad c f).port y = s.port y := rfl
@[simp] theorem State.port_modConvoy (c : Conv) (f : Convoy → Convoy) (y : Port) : (s.modConvoy c f).port y = s.port y := rfl
@[simp] theorem State.port_setUsage (a : Addr) (u : TruckUse) (y : Port) : (s.setUsage a u).port y = s.port y := rfl
@[simp] theorem State.port_modTrack (c : Conv) (f : Track → Track) (y : Port) : (s.modTrack c f).port y = s.port y := rfl
@[simp] theorem State.port_modSpeed (a : Addr) (f : Speed → Speed) (y : Port) : (s.modSpeed a f).port y = s.port y := rfl
@[simp] theorem State.port_modRadio (a : Addr) (f : RadioTruck → RadioTruck) (y : Port) : (s.modRadio a f).port y = s.port y := rfl
@[simp] theorem State.port_modRds (f : Dispatcher → Dispatcher) (y : Port) : (s.modRds f).port y = s.port y := rfl
@[simp] theorem State.port_modInput (d : Inp) (f : Input → Input) (y : Port) : (s.modInput d f).port y = s.port y := rfl
@[simp] theorem State.port_modHls (f : HaltSupervisor → HaltSupervisor) (y : Port) : (s.modHls f).port y = s.port y := rfl
@[simp] theorem State.port_modMu (f : MapUnit → MapUnit) (y : Port) : (s.modMu f).port y = s.port y := rfl
@[simp] theorem State.port_raise (n : Notice) (who : Audience) (y : Port) : (s.raise n who).port y = s.port y := rfl
@[simp] theorem State.sectionRec_modSec (x : Sec) (f : Section → Section) (y : Sec) : (s.modSec x f).sectionRec y = s.sectionRec y := rfl
@[simp] theorem State.sectionRec_modGrp (g : Grp) (f : Group → Group) (y : Sec) : (s.modGrp g f).sectionRec y = s.sectionRec y := rfl
@[simp] theorem State.sectionRec_modRoad (c : Conv) (f : Road → Road) (y : Sec) : (s.modRoad c f).sectionRec y = s.sectionRec y := rfl
@[simp] theorem State.sectionRec_modConvoy (c : Conv) (f : Convoy → Convoy) (y : Sec) : (s.modConvoy c f).sectionRec y = s.sectionRec y := rfl
@[simp] theorem State.sectionRec_setUsage (a : Addr) (u : TruckUse) (y : Sec) : (s.setUsage a u).sectionRec y = s.sectionRec y := rfl
@[simp] theorem State.sectionRec_modTrack (c : Conv) (f : Track → Track) (y : Sec) : (s.modTrack c f).sectionRec y = s.sectionRec y := rfl
@[simp] theorem State.sectionRec_modSpeed (a : Addr) (f : Speed → Speed) (y : Sec) : (s.modSpeed a f).sectionRec y = s.sectionRec y := rfl
@[simp] theorem State.sectionRec_modRadio (a : Addr) (f : RadioTruck → RadioTruck) (y : Sec) : (s.modRadio a f).sectionRec y = s.sectionRec y := rfl
@[simp] theorem State.sectionRec_modRds (f : Dispatcher → Dispatcher) (y : Sec) : (s.modRds f).sectionRec y = s.sectionRec y := rfl
@[simp] theorem State.sectionRec_modPort (p : Port) (f : PortState → PortState) (y : Sec) : (s.modPort p f).sectionRec y = s.sectionRec y := rfl
@[simp] theorem State.sectionRec_modInput (d : Inp) (f : Input → Input) (y : Sec) : (s.modInput d f).sectionRec y = s.sectionRec y := rfl
@[simp] theorem State.sectionRec_modHls (f : HaltSupervisor → HaltSupervisor) (y : Sec) : (s.modHls f).sectionRec y = s.sectionRec y := rfl
@[simp] theorem State.sectionRec_raise (n : Notice) (who : Audience) (y : Sec) : (s.raise n who).sectionRec y = s.sectionRec y := rfl
@[simp] theorem State.level_modSec (x : Sec) (f : Section → Section) (y : Port) : (s.modSec x f).level y = s.level y := rfl
@[simp] theorem State.level_modGrp (g : Grp) (f : Group → Group) (y : Port) : (s.modGrp g f).level y = s.level y := rfl
@[simp] theorem State.level_modRoad (c : Conv) (f : Road → Road) (y : Port) : (s.modRoad c f).level y = s.level y := rfl
@[simp] theorem State.level_modConvoy (c : Conv) (f : Convoy → Convoy) (y : Port) : (s.modConvoy c f).level y = s.level y := rfl
@[simp] theorem State.level_setUsage (a : Addr) (u : TruckUse) (y : Port) : (s.setUsage a u).level y = s.level y := rfl
@[simp] theorem State.level_modTrack (c : Conv) (f : Track → Track) (y : Port) : (s.modTrack c f).level y = s.level y := rfl
@[simp] theorem State.level_modSpeed (a : Addr) (f : Speed → Speed) (y : Port) : (s.modSpeed a f).level y = s.level y := rfl
@[simp] theorem State.level_modRadio (a : Addr) (f : RadioTruck → RadioTruck) (y : Port) : (s.modRadio a f).level y = s.level y := rfl
@[simp] theorem State.level_modRds (f : Dispatcher → Dispatcher) (y : Port) : (s.modRds f).level y = s.level y := rfl
@[simp] theorem State.level_modPort (p : Port) (f : PortState → PortState) (y : Port) : (s.modPort p f).level y = s.level y := rfl
@[simp] theorem State.level_modInput (d : Inp) (f : Input → Input) (y : Port) : (s.modInput d f).level y = s.level y := rfl
@[simp] theorem State.level_modHls (f : HaltSupervisor → HaltSupervisor) (y : Port) : (s.modHls f).level y = s.level y := rfl
@[simp] theorem State.level_raise (n : Notice) (who : Audience) (y : Port) : (s.raise n who).level y = s.level y := rfl
@[simp] theorem State.map_modSec (x : Sec) (f : Section → Section) : (s.modSec x f).map = s.map := rfl
@[simp] theorem State.map_modGrp (g : Grp) (f : Group → Group) : (s.modGrp g f).map = s.map := rfl
@[simp] theorem State.map_modRoad (c : Conv) (f : Road → Road) : (s.modRoad c f).map = s.map := rfl
@[simp] theorem State.map_modConvoy (c : Conv) (f : Convoy → Convoy) : (s.modConvoy c f).map = s.map := rfl
@[simp] theorem State.map_setUsage (a : Addr) (u : TruckUse) : (s.setUsage a u).map = s.map := rfl
@[simp] theorem State.map_modTrack (c : Conv) (f : Track → Track) : (s.modTrack c f).map = s.map := rfl
@[simp] theorem State.map_modSpeed (a : Addr) (f : Speed → Speed) : (s.modSpeed a f).map = s.map := rfl
@[simp] theorem State.map_modRadio (a : Addr) (f : RadioTruck → RadioTruck) : (s.modRadio a f).map = s.map := rfl
@[simp] theorem State.map_modRds (f : Dispatcher → Dispatcher) : (s.modRds f).map = s.map := rfl
@[simp] theorem State.map_modPort (p : Port) (f : PortState → PortState) : (s.modPort p f).map = s.map := rfl
@[simp] theorem State.map_modInput (d : Inp) (f : Input → Input) : (s.modInput d f).map = s.map := rfl
@[simp] theorem State.map_modHls (f : HaltSupervisor → HaltSupervisor) : (s.modHls f).map = s.map := rfl
@[simp] theorem State.map_raise (n : Notice) (who : Audience) : (s.raise n who).map = s.map := rfl

end Sys2Proof.Machine
end

