-- ==== Sys2Proof/Laws/Ops.lean ====
section
/-!
SUPPORT. What the shared operations do, said once: repeated updates, free orders, the end of an event with its notices,
the generic checks of a request, and grant scans.
-/

namespace Sys2Proof.Machine

open Sys2Proof

set_option Elab.async false

/-! ### Repeated updates -/

@[simp] theorem State.forEach_nil {α : Type} (s : State) (f : State → α → State) : s.forEach [] f = s := rfl

@[simp] theorem State.forEach_cons {α : Type} (s : State) (a : α) (l : List α) (f : State → α → State) :
    s.forEach (a :: l) f = (f s a).forEach l f := rfl

/-- What every single update keeps, the whole run keeps. -/
theorem State.forEach_keeps {α β : Type} (g : State → β) (f : State → α → State) (h : ∀ s a, g (f s a) = g s)
    (s : State) (l : List α) : g (s.forEach l f) = g s := by
  induction l generalizing s with
  | nil => rfl
  | cons a l ih => rw [forEach_cons, ih, h]

/-- A property that every single update keeps holds after the whole run. -/
theorem State.forEach_inv {α : Type} (P : State → Prop) (f : State → α → State) (h : ∀ s a, P s → P (f s a))
    (s : State) (l : List α) (hs : P s) : P (s.forEach l f) := by
  induction l generalizing s with
  | nil => exact hs
  | cons a l ih => exact ih _ (h s a hs)

/-- As `forEach_inv`, with the element known to be in the list. -/
theorem State.forEach_inv_mem {α : Type} (P : State → Prop) (f : State → α → State) (s : State) (l : List α)
    (h : ∀ s, ∀ a ∈ l, P s → P (f s a)) (hs : P s) : P (s.forEach l f) := by
  induction l generalizing s with
  | nil => exact hs
  | cons a l ih => exact ih _ (fun s b hb => h s b (by simp [hb])) (h s a (by simp) hs)

theorem State.forEach_append {α : Type} (s : State) (l k : List α) (f : State → α → State) :
    s.forEach (l ++ k) f = (s.forEach l f).forEach k f := List.foldl_append

/-! ### Free orders -/

theorem reorder_perm {α : Type} (k fuel : Nat) (l : List α) : (reorder k fuel l).Perm l := by
  induction fuel generalizing k l with
  | zero => simp [reorder]
  | succ n ih =>
    match l with
    | [] => simp [reorder]
    | [x] => simp [reorder]
    | x :: y :: l =>
      have hlt : Config.choice k % (l.length + 2) < (x :: y :: l).length := Nat.mod_lt _ (by omega)
      simp only [reorder]
      refine (List.Perm.cons _ (ih _ _)).trans ?_
      rw [List.getD_eq_getElem _ _ hlt]
      exact List.getElem_cons_eraseIdx_perm hlt

theorem State.anyOrder_perm {α : Type} (s : State) (l : List α) : (s.anyOrder l).1.Perm l := by
  match l with
  | [] => simp [anyOrder]
  | [x] => simp [anyOrder]
  | x :: y :: l => exact reorder_perm _ _ _

/-- A free order changes nothing but the number of the next choice. -/
theorem State.anyOrder_state {α : Type} (s : State) (l : List α) : ∃ k, (s.anyOrder l).2 = { s with fresh := k } := by
  match l with
  | [] => exact ⟨s.fresh, rfl⟩
  | [x] => exact ⟨s.fresh, rfl⟩
  | x :: y :: l => exact ⟨_, rfl⟩

@[simp] theorem State.anyOrder_nil {α : Type} (s : State) : s.anyOrder ([] : List α) = ([], s) := rfl

@[simp] theorem State.anyOrder_single {α : Type} (s : State) (x : α) : s.anyOrder [x] = ([x], s) := rfl

/-! ### The end of an event -/

/-- `r` is `q` but for its notice queue and its flush timer. -/
def MoreNotices (q r : PortState) : Prop := ∃ ns fl, r = { q with notices := ns, flush := fl }

theorem MoreNotices.refl (q : PortState) : MoreNotices q q := ⟨q.notices, q.flush, rfl⟩

theorem MoreNotices.notify {q r : PortState} (h : MoreNotices q r) (n : Notice) : MoreNotices q (r.notify n) := by
  obtain ⟨ns, fl, rfl⟩ := h
  unfold PortState.notify
  split
  · exact ⟨_, _, rfl⟩
  · exact ⟨_, _, rfl⟩

/-- `t` is `s` but for the raised notices, the number of the next free choice and the ports' notices. -/
def DiffersInNotices (s t : State) : Prop :=
  ∃ k l ps, t = { s with raised := l, fresh := k, ports := ps } ∧ ∀ q, MoreNotices (s.port q) (ps.nth q)

theorem DiffersInNotices.refl (s : State) : DiffersInNotices s s :=
  ⟨s.fresh, s.raised, s.ports, rfl, fun _ => .refl _⟩

theorem DiffersInNotices.notify {s t : State} (h : DiffersInNotices s t) (n : Notice) (p : Port) :
    DiffersInNotices s (t.modPort p fun q => q.notify n) := by
  obtain ⟨k, l, ps, rfl, hc⟩ := h
  refine ⟨k, l, ps.put p ((ps.nth p).notify n), rfl, fun q => ?_⟩
  by_cases hq : q = p
  · subst hq
    simpa using (hc q).notify n
  · simpa [hq] using hc q

theorem DiffersInNotices.deliverOne {s t : State} (h : DiffersInNotices s t) (r : Raised) :
    DiffersInNotices s (t.deliverOne r) :=
  State.forEach_inv (DiffersInNotices s) _ (fun _ p ht => ht.notify r.notice p) t r.ports h

theorem DiffersInNotices.anyOrder {s t : State} {α : Type} (h : DiffersInNotices s t) (l : List α) :
    DiffersInNotices s (t.anyOrder l).2 := by
  obtain ⟨k, hk⟩ := t.anyOrder_state l
  obtain ⟨k', l', ps, rfl, hc⟩ := h
  exact ⟨k, l', ps, hk, hc⟩

/-- The end of an event changes nothing but what `DiffersInNotices` lists. -/
theorem State.deliver_differs (s : State) : DiffersInNotices s s.deliver := by
  unfold State.deliver
  refine State.forEach_inv (DiffersInNotices s) _ (fun t c ht => ?_) _ _
    ⟨s.fresh, [], s.ports, rfl, fun _ => .refl _⟩
  exact State.forEach_inv (DiffersInNotices s) _ (fun _ r h => h.deliverOne r) _ _ (ht.anyOrder _)

theorem State.deliverOne_raised (s : State) (r : Raised) : (s.deliverOne r).raised = s.raised :=
  forEach_keeps (fun t => t.raised) (fun t p => t.modPort p fun q => q.notify r.notice) (fun _ _ => rfl) s r.ports

theorem State.anyOrder_raised {α : Type} (s : State) (l : List α) : (s.anyOrder l).2.raised = s.raised := by
  obtain ⟨k, hk⟩ := s.anyOrder_state l
  rw [hk]

/-- No notice is left raised at the end of an event. -/
@[simp] theorem State.deliver_raised (s : State) : s.deliver.raised = [] := by
  unfold State.deliver
  refine forEach_keeps (fun t => t.raised) _ (fun t c => ?_) { s with raised := [] } _
  exact (forEach_keeps (fun t => t.raised) _ deliverOne_raised _ _).trans (anyOrder_raised t _)

/-- An event in which no notice was raised ends as it stands. -/
theorem State.deliver_quiet (s : State) (h : s.raised = []) : s.deliver = s := by
  have hk : ∀ (l : List (Option Conv)) (t : State),
      t.forEach l (fun s c =>
        let (ordered, s) := s.anyOrder (raisedFor [] c)
        s.forEach ordered State.deliverOne) = t := by
    intro l
    induction l with
    | nil => intro t; rfl
    | cons c l ih => intro t; rw [State.forEach_cons]; simpa [raisedFor] using ih t
  unfold State.deliver
  simp only [h]
  rw [hk]
  cases s
  simp_all

/-- All that the end of an event does to the state its effect made: no notice is left raised, some free choices are made,
and each port is `Noticed`. -/
theorem State.event_spec (s : State) (f : State → State) :
    ∃ k ps, s.event f = { f { s with eventNo := s.eventNo + 1 } with raised := [], fresh := k, ports := ps }
      ∧ ∀ q, Noticed ((f { s with eventNo := s.eventNo + 1 }).port q) (ps.nth q) := by
  have hr := deliver_raised (f { s with eventNo := s.eventNo + 1 })
  obtain ⟨k, l, ps, h, hc⟩ := (f { s with eventNo := s.eventNo + 1 }).deliver_differs
  rw [h] at hr
  refine ⟨k, ps.map PortState.look, ?_, fun q => ?_⟩
  · rw [event, h, show l = [] from hr]
    rfl
  · obtain ⟨ns, fl, e⟩ := hc q
    exact ⟨ns, fl, by rw [perPort_nth_map, e]⟩

@[simp] theorem State.event_raised (s : State) (f : State → State) : (s.event f).raised = [] := deliver_raised _

/-- What does not depend on notices, free choices and ports, an event keeps where its effect keeps it. -/
theorem State.event_keeps {β : Type} (g : State → β)
    (hg : ∀ (s : State) k l ps, g { s with raised := l, fresh := k, ports := ps } = g s) (s : State)
    (f : State → State) : g (s.event f) = g (f { s with eventNo := s.eventNo + 1 }) := by
  obtain ⟨k, ps, h, -⟩ := s.event_spec f
  rw [h, hg]

/-- An event whose effect raises no notice is its effect, with the look of the transmitters (R154). -/
theorem State.event_quiet (s : State) (f : State → State) (h : (f { s with eventNo := s.eventNo + 1 }).raised = []) :
    s.event f = (f { s with eventNo := s.eventNo + 1 }).looked := by rw [event, deliver_quiet _ h]

/-- No event leaves a transmitter idle that has something to send (R154). -/
theorem State.event_busy (s : State) (f : State → State) : NothingWaitsIdle (s.event f) := fun p => by
  rw [event, port_looked]
  exact PortState.look_done _

end Sys2Proof.Machine
end

