-- ==== Sys2Proof/Laws/Frames.lean ====
section
/-!
SUPPORT. Which blocks each shared operation can reach, said once: frames, from the single updates up to a passage, a
grant scan, a fault, a halt and a whole event.
-/

namespace Sys2Proof.Machine

open Sys2Proof

set_option Elab.async false

/-! ### Composing frames -/

theorem KeepsAllBut.refl (s : State) (bs : List Block) : KeepsAllBut s s bs := fun b _ => by cases b <;> rfl

theorem KeepsAllBut.trans {s t u : State} {bs : List Block} (h : KeepsAllBut s t bs) (k : KeepsAllBut t u bs) :
    KeepsAllBut s u bs := fun b hb => by
  have h := h b hb
  have k := k b hb
  cases b <;> exact Eq.trans k h

theorem KeepsAllBut.mono {s t : State} {as bs : List Block} (h : KeepsAllBut s t as)
    (hs : ∀ b ∈ as, b ∈ bs := by decide) : KeepsAllBut s t bs := fun b hb => h b fun ha => hb (hs b ha)

theorem KeepsAllBut.ite {s t u : State} {bs : List Block} {c : Prop} [Decidable c] (h : KeepsAllBut s t bs)
    (k : KeepsAllBut s u bs) : KeepsAllBut s (if c then t else u) bs := by
  split
  · exact h
  · exact k

theorem KeepsAllBut.forEach {α : Type} {bs : List Block} {f : State → α → State} (h : ∀ s a, KeepsAllBut s (f s a) bs)
    (s : State) (l : List α) : KeepsAllBut s (s.forEach l f) bs :=
  State.forEach_inv (fun t => KeepsAllBut s t bs) f (fun _ a k => k.trans (h _ a)) s l (.refl s bs)

namespace State

variable (s : State)

/-! ### Single updates -/

theorem setMap_frame (m : LayoutMap) : KeepsAllBut s (s.setMap m) [.mapUnit] := fun b hb => by
  cases b <;> first | rfl | simp at hb
theorem modMu_frame (f : MapUnit → MapUnit) : KeepsAllBut s (s.modMu f) [.mapUnit] := fun b hb => by
  cases b <;> first | rfl | simp at hb
theorem modInput_frame (d : Inp) (f : Input → Input) : KeepsAllBut s (s.modInput d f) [.frontEnd] := fun b hb => by
  cases b <;> first | rfl | simp at hb
theorem modConvoy_frame (c : Conv) (f : Convoy → Convoy) : KeepsAllBut s (s.modConvoy c f) [.convoyTable] :=
  fun b hb => by cases b <;> first | rfl | simp at hb
theorem setUsage_frame (a : Addr) (u : TruckUse) : KeepsAllBut s (s.setUsage a u) [.convoyTable] := fun b hb => by
  cases b <;> first | rfl | simp at hb
theorem modSec_frame (x : Sec) (f : Section → Section) : KeepsAllBut s (s.modSec x f) [.interlock] := fun b hb => by
  cases b <;> first | rfl | simp at hb
theorem modGrp_frame (g : Grp) (f : Group → Group) : KeepsAllBut s (s.modGrp g f) [.interlock] := fun b hb => by
  cases b <;> first | rfl | simp at hb
theorem modRoad_frame (c : Conv) (f : Road → Road) : KeepsAllBut s (s.modRoad c f) [.interlock] := fun b hb => by
  cases b <;> first | rfl | simp at hb
theorem modTrack_frame (c : Conv) (f : Track → Track) : KeepsAllBut s (s.modTrack c f) [.tracker] := fun b hb => by
  cases b <;> first | rfl | simp at hb
theorem modSpeed_frame (a : Addr) (f : Speed → Speed) : KeepsAllBut s (s.modSpeed a f) [.governor] := fun b hb => by
  cases b <;> first | rfl | simp at hb
theorem modRadio_frame (a : Addr) (f : RadioTruck → RadioTruck) : KeepsAllBut s (s.modRadio a f) [.dispatcher] :=
  fun b hb => by cases b <;> first | rfl | simp at hb
theorem modRds_frame (f : Dispatcher → Dispatcher) : KeepsAllBut s (s.modRds f) [.dispatcher] := fun b hb => by
  cases b <;> first | rfl | simp at hb
theorem modPort_frame (p : Port) (f : PortState → PortState) : KeepsAllBut s (s.modPort p f) [.consolePorts] :=
  fun b hb => by cases b <;> first | rfl | simp at hb
theorem modHls_frame (f : HaltSupervisor → HaltSupervisor) : KeepsAllBut s (s.modHls f) [.haltSupervisor] :=
  fun b hb => by cases b <;> first | rfl | simp at hb

/-- A notice raised reaches no block before the end of its event. -/
theorem raise_frame (n : Notice) (who : Audience) : KeepsAllBut s (s.raise n who) [] := fun b _ => by cases b <;> rfl

theorem anyOrder_frame {α : Type} (l : List α) : KeepsAllBut s (s.anyOrder l).2 [] := fun b _ => by
  obtain ⟨k, hk⟩ := s.anyOrder_state l
  rw [hk]
  cases b <;> rfl

/-! ### Marks, hard stops, targets (R117, R122, R123, R134) -/

theorem markStop_frame (a : Addr) : KeepsAllBut s (s.markStop a) [.dispatcher] := s.modRadio_frame a _

theorem markBranch_frame (a : Addr) : KeepsAllBut s (s.markBranch a) [.dispatcher] := by
  unfold markBranch
  exact .ite (s.modRadio_frame a _) (.refl _ _)

/-- A hard stop sets the truck's speeds to 0 and marks a STOP frame; no other truck is touched (R117). -/
theorem hardStop_spec (a : Addr) : ((s.hardStop a).speed a = ⟨0, 0⟩ ∧ (s.hardStop a).radio a = (s.radio a).stopped s.eventNo)
    ∧ ∀ b, b ≠ a → (s.hardStop a).speed b = s.speed b ∧ (s.hardStop a).radio b = s.radio b := by
  refine ⟨⟨?_, ?_⟩, fun b hb => ⟨?_, ?_⟩⟩ <;> simp_all [hardStop, markStop, RadioTruck.stopped]

theorem hardStop_frame (a : Addr) : KeepsAllBut s (s.hardStop a) [.governor, .dispatcher] :=
  (s.modSpeed_frame a _).mono.trans ((markStop_frame _ a).mono)

theorem hardStopAll_frame (c : Conv) : KeepsAllBut s (s.hardStopAll c) [.governor, .dispatcher] :=
  .forEach (fun t a => t.hardStop_frame a) _ _

theorem applyTarget_frame (a : Addr) (n : Nat) : KeepsAllBut s (s.applyTarget a n) [.governor, .dispatcher] := by
  unfold applyTarget
  exact .ite (s.modSpeed_frame a _).mono (.ite (s.hardStop_frame a) (.refl _ _))

theorem retarget_frame (c : Conv) (st : ConvoyState) : KeepsAllBut s (s.retarget c st) [.governor, .dispatcher] := by
  unfold retarget
  split
  · exact s.applyTarget_frame _ _
  · exact .refl _ _

theorem recomputeTarget_frame (c : Conv) : KeepsAllBut s (s.recomputeTarget c) [.governor, .dispatcher] := by
  unfold recomputeTarget
  exact .ite (s.retarget_frame c _) (.refl _ _)

theorem recomputeAllTargets_frame : KeepsAllBut s s.recomputeAllTargets [.governor, .dispatcher] :=
  .forEach (fun t c => t.recomputeTarget_frame c) _ _

theorem lowerTo_frame (n : Nat) (a : Addr) : KeepsAllBut s (s.lowerTo n a) [.governor] := s.modSpeed_frame a _

theorem vmaxChanged_frame (c : Conv) : KeepsAllBut s (s.vmaxChanged c) [.governor, .dispatcher] :=
  (KeepsAllBut.forEach (fun t a => t.lowerTo_frame _ a) _ _).mono.trans (recomputeTarget_frame _ c)

theorem supplyLowered_frame : KeepsAllBut s s.supplyLowered [.governor, .dispatcher] :=
  (KeepsAllBut.forEach (fun t a => t.lowerTo_frame _ a) _ _).mono.trans (recomputeAllTargets_frame _)

theorem followerComputation_frame (c : Conv) (a : Addr) (k j g tg : Nat) :
    KeepsAllBut s (s.followerComputation c a k j g tg) [.governor] := s.modSpeed_frame a _

theorem lagBoost_frame (c : Conv) (u : Nat) : KeepsAllBut s (s.lagBoost c u) [.governor] := by
  unfold lagBoost
  split
  · exact .ite (.refl _ _) (s.modSpeed_frame _ _)
  · exact .refl _ _

theorem rampTruck_frame (a : Addr) : KeepsAllBut s (s.rampTruck a) [.governor] := by
  unfold rampTruck
  split
  · exact s.modSpeed_frame a _
  · exact .refl _ _
  · exact .refl _ _

/-! ### Trucks that join and leave (R50, R133) -/

/-- A truck that leaves its convoy retires, stands, owes its stop frame and is named in no aux queue (R50, R133, R141). -/
theorem retire_spec (a : Addr) (c : Conv) (h : s.usage a = .active c) :
    (s.retire a).usage a = .retiring c ∧ (s.retire a).speed a = ⟨0, 0⟩
      ∧ (s.retire a).radio a = (s.radio a).retired s.eventNo
      ∧ ∀ p, (s.retire a).auxQueue p = (s.auxQueue p).filter fun e => e.addr != a := by
  simp only [retire, h]
  refine ⟨?_, ?_, ?_, fun p => ?_⟩ <;>
    simp [hardStop, markStop, RadioTruck.retired, State.usage, State.speed, State.radio, auxQueue]

theorem retire_frame (a : Addr) : KeepsAllBut s (s.retire a) [.convoyTable, .governor, .dispatcher] := by
  unfold retire
  split
  · exact (((s.setUsage_frame a _).mono.trans (hardStop_frame _ a).mono).trans (modRadio_frame _ a _).mono).trans
      (modRds_frame _ _).mono
  · exact .refl _ _
  · exact .refl _ _

/-- A truck that joins a convoy is ACTIVE in it at speed 0, and due at once (R60, R115, R133). -/
theorem activate_spec (c : Conv) (a : Addr) : (s.activate c a).usage a = .active c ∧ (s.activate c a).speed a = ⟨0, 0⟩
    ∧ (s.activate c a).radio a = ⟨0, false, false, false, some s.now, none, none⟩ := by
  refine ⟨?_, ?_, ?_⟩ <;> simp [activate, State.usage, State.speed, State.radio, RadioTruck.blank]

theorem activate_frame (c : Conv) (a : Addr) :
    KeepsAllBut s (s.activate c a) [.convoyTable, .governor, .dispatcher] :=
  ((s.setUsage_frame a _).mono.trans (modSpeed_frame _ a _).mono).trans (modRadio_frame _ a _).mono

theorem recomputePeriod_frame : KeepsAllBut s s.recomputePeriod [.dispatcher] := s.modRds_frame _

/-! ### Units and branch bits (R107 to R110, R113) -/

theorem setUnit_frame (c : Conv) (u : Nat) (r : RunState) : KeepsAllBut s (s.setUnit c u r) [.tracker] := by
  unfold setUnit
  exact .ite (.refl _ _) (s.modTrack_frame c _)

theorem unitsDown_frame (c : Conv) : KeepsAllBut s (s.unitsDown c) [.tracker] := s.modTrack_frame c _

theorem modRecord_frame (c : Conv) (j : Nat) (f : Crossing → Crossing) :
    KeepsAllBut s (s.modRecord c j f) [.tracker] := s.modTrack_frame c _

theorem standUnit_frame (c : Conv) (u : Nat) : KeepsAllBut s (s.standUnit c u) [.tracker, .governor, .dispatcher] := by
  unfold standUnit
  refine KeepsAllBut.trans (s.setUnit_frame c u .down).mono ?_
  dsimp only
  split
  · exact (hardStop_frame _ _).mono
  · exact .refl _ _

theorem standDown_frame (c : Conv) : KeepsAllBut s (s.standDown c) [.tracker, .governor, .dispatcher] := by
  refine .forEach (fun t u => ?_) _ _
  unfold standDownUnit
  exact .ite (t.standUnit_frame c u) (.ite (t.setUnit_frame c u _).mono (.refl _ _))

theorem restartUnit_frame (c : Conv) (u : Nat) : KeepsAllBut s (s.restartUnit c u) [.tracker, .governor] := by
  unfold restartUnit
  dsimp only
  refine KeepsAllBut.trans (t := match s.unitTruck? c u with
    | some a => s.modSpeed a fun sp => { sp with set := s.restartSpeed c u (s.restartReference c u) }
    | none => s) ?_ (.ite (setUnit_frame _ c u _).mono (.refl _ _))
  split
  · exact (s.modSpeed_frame _ _).mono
  · exact .refl _ _

theorem unitSteps_frame (c : Conv) (k j u : Nat) :
    KeepsAllBut s (s.unitSteps c k j u) [.tracker, .governor, .dispatcher] := by
  have h1 : ∀ t : State, KeepsAllBut t (t.standDownStep c k j u) [.tracker, .governor, .dispatcher] := fun t => by
    unfold standDownStep
    exact .ite (t.standUnit_frame c u) (.refl _ _)
  have h2 : ∀ t : State, KeepsAllBut t (t.restartStep c k u) [.tracker, .governor, .dispatcher] := fun t => by
    unfold restartStep
    exact .ite (t.restartUnit_frame c u).mono (.refl _ _)
  have h3 : ∀ t : State, KeepsAllBut t (t.stoppedAheadStep c k u) [.tracker, .governor, .dispatcher] := fun t => by
    unfold stoppedAheadStep
    exact .ite (t.setUnit_frame c u _).mono (.refl _ _)
  exact ((h1 s).trans (h2 _)).trans (h3 _)

theorem afterPassage_frame (c : Conv) (k j : Nat) :
    KeepsAllBut s (s.afterPassage c k j) [.tracker, .governor, .dispatcher] :=
  .forEach (fun t u => t.unitSteps_frame c k j u) _ _

theorem resetUnit_frame (c : Conv) (u : Nat) : KeepsAllBut s (s.resetUnit c u) [.tracker] := by
  unfold resetUnit
  split
  · exact s.setUnit_frame c u _
  · exact s.setUnit_frame c u _
  · exact .ite (s.setUnit_frame c u _) (.ite (s.setUnit_frame c u _) (.refl _ _))
  · exact .ite (s.setUnit_frame c u _) (.ite (s.setUnit_frame c u _) (.refl _ _))
  · exact .refl _ _

theorem restartUnits_frame (c : Conv) : KeepsAllBut s (s.restartUnits c) [.tracker, .governor] := by
  refine KeepsAllBut.trans (KeepsAllBut.forEach (fun t u => (t.resetUnit_frame c u).mono) _ _)
    (KeepsAllBut.forEach (fun t u => ?_) _ _)
  unfold runInUnit
  exact .ite (t.restartUnit_frame c u) (.refl _ _)

theorem setState_frame (c : Conv) (st : ConvoyState) : KeepsAllBut s (s.setState c st) [.convoyTable] :=
  s.modConvoy_frame c _

theorem restart_frame (c : Conv) : KeepsAllBut s (s.restart c) [.convoyTable, .tracker, .governor, .dispatcher] :=
  ((s.retarget_frame c _).mono.trans (.ite (setState_frame _ c _).mono (.refl _ _))).trans (restartUnits_frame _ c).mono

theorem tellEffective_frame (c : Conv) :
    KeepsAllBut s (s.tellEffective c) [.convoyTable, .tracker, .governor, .dispatcher] := by
  unfold tellEffective
  exact .ite (s.restart_frame c) (s.recomputeTarget_frame c).mono

theorem updateBranch_frame (c : Conv) (a : Addr) (j : Nat) : KeepsAllBut s (s.updateBranch c a j) [.dispatcher] := by
  unfold updateBranch
  split
  · exact .refl _ _
  · exact .ite (.refl _ _) ((s.modRadio_frame a _).trans (markBranch_frame _ a))

theorem updateAllBranches_frame (c : Conv) : KeepsAllBut s (s.updateAllBranches c) [.dispatcher] :=
  .forEach (fun t _ => t.updateBranch_frame c _ _) _ _

/-! ### The Interlock (R75 to R90) -/

theorem modQueue_frame (r : Resource) (f : List Entry → List Entry) : KeepsAllBut s (s.modQueue r f) [.interlock] := by
  cases r
  · exact s.modSec_frame _ _
  · exact s.modGrp_frame _ _

theorem cancelWatch_frame (c : Conv) : KeepsAllBut s (s.cancelWatch c) [.interlock] := s.modRoad_frame c _

theorem toRest_frame (x : Sec) : KeepsAllBut s (s.toRest x) [.interlock] := s.modSec_frame x _

theorem giveBack_frame (c : Conv) (x : Sec) : KeepsAllBut s (s.giveBack c x) [.interlock] := by
  unfold giveBack
  exact .ite (s.toRest_frame x) (.refl _ _)

theorem releaseNow_frame (c : Conv) (r : Resource) : KeepsAllBut s (s.releaseNow c r) [.interlock] := by
  cases r with
  | sec x => exact s.giveBack_frame c x
  | grp g => exact (s.modGrp_frame g _).trans (.forEach (fun t x => t.giveBack_frame c x) _ _)

theorem releaseList_frame (c : Conv) (rs : List Resource) : KeepsAllBut s (s.releaseList c rs) [.interlock] :=
  .forEach (fun t r => t.releaseNow_frame c r) _ _

theorem withdraw_frame (c : Conv) : KeepsAllBut s (s.withdraw c) [.interlock] := by
  unfold withdraw
  split
  · exact (s.modQueue_frame _ _).trans (modRoad_frame _ c _)
  · exact .refl _ _
  · exact s.modRoad_frame c _

theorem join_frame (c : Conv) (k : Nat) (x : Sec) (r : Resource) : KeepsAllBut s (s.join c k x r) [.interlock] :=
  (s.modQueue_frame r _).trans (modRoad_frame _ c _)

theorem refuse_frame (c : Conv) (x : Sec) (r : Resource) : KeepsAllBut s (s.refuse c x r) [.interlock] :=
  (s.modRoad_frame c _).trans (raise_frame _ _ _).mono

theorem holdResource_frame (c : Conv) (r : Resource) : KeepsAllBut s (s.holdResource c r) [.interlock] := by
  cases r with
  | sec x => exact s.modSec_frame x _
  | grp g => exact (s.modGrp_frame g _).trans (.forEach (fun t x => t.modSec_frame x _) _ _)

theorem evalWatch_frame (c : Conv) : KeepsAllBut s (s.evalWatch c) [.interlock, .dispatcher] := by
  unfold evalWatch
  split
  · exact .refl _ _
  · rename_i m _
    refine .ite (.refl _ _) (KeepsAllBut.trans (s.modRoad_frame c fun r => { r with watch := .awaiting m }).mono ?_)
    dsimp only
    split
    · exact (markBranch_frame _ _).mono
    · exact .refl _ _

/-- The blocks that road can reach before the notices of the event join their queues. -/
def reach : List Block := [.convoyTable, .interlock, .tracker, .governor, .dispatcher]

theorem watchEffective_frame (c : Conv) (m : Nat) : KeepsAllBut s (s.watchEffective c m) reach :=
  KeepsAllBut.trans (s.modRoad_frame c _).mono (.ite (tellEffective_frame _ c).mono (.refl _ _))

theorem watchFrame_frame (c : Conv) : KeepsAllBut s (s.watchFrame c) reach := by
  unfold watchFrame
  split
  · exact .ite (s.watchEffective_frame c _) (s.modRoad_frame c _).mono
  · exact .refl _ _
  · exact .refl _ _
  · exact .refl _ _

theorem grantTo_frame (r : Resource) (e : Entry) : KeepsAllBut s (s.grantTo r e) reach := by
  unfold grantTo
  dsimp only
  refine KeepsAllBut.trans ?_ (KeepsAllBut.ite (tellEffective_frame _ e.conv).mono (.refl _ _))
  refine KeepsAllBut.trans ?_ (evalWatch_frame _ e.conv).mono
  refine KeepsAllBut.trans ?_ (raise_frame _ _ _).mono
  refine KeepsAllBut.trans ?_ (holdResource_frame _ e.conv r).mono
  exact (s.modQueue_frame r _).mono.trans (modRoad_frame _ e.conv _).mono

theorem scanFuel_frame (fuel : Nat) (r : Resource) : KeepsAllBut s (s.scanFuel fuel r) reach := by
  induction fuel generalizing s r with
  | zero => exact .refl _ _
  | succ n ih =>
    unfold scanFuel
    split
    · exact .refl _ _
    · rename_i e _
      refine KeepsAllBut.trans (s.grantTo_frame r e) ?_
      dsimp only
      split
      · exact .refl _ _
      · exact .ite (refuse_frame _ _ _ _).mono ((join_frame _ _ _ _ _).mono.trans (ih _ _))

/-- A grant scan reaches road, convoys, units, speeds and marks, and nothing else (R81). -/
theorem scan_frame (r : Resource) : KeepsAllBut s (s.scan r) reach := s.scanFuel_frame _ r

theorem scanAll_frame (rs : List Resource) : KeepsAllBut s (s.scanAll rs) reach :=
  (s.anyOrder_frame _).mono.trans (.forEach (fun t r => t.scan_frame r) _ _)

theorem request_frame (c : Conv) : KeepsAllBut s (s.request c) reach := by
  unfold request
  split
  · exact .refl _ _
  · exact .ite (s.refuse_frame _ _ _).mono ((s.join_frame _ _ _ _).mono.trans (scan_frame _ _))

/-- A scan of a resource that nobody waits for does nothing. -/
theorem scan_idle (r : Resource) (h : s.queue r = []) : s.scan r = s := by
  have : s.scanChoice r = none := by simp [scanChoice, h]
  simp [scan, scanFuel, scanLimit, this]

/-- Scans of resources that nobody waits for do nothing. -/
theorem scanAll_idle (rs : List Resource) (h : ∀ r ∈ rs, s.queue r = []) : s.scanAll rs = s := by
  have : (rs.filter fun r => !(s.queue r).isEmpty) = [] := by
    simp only [List.filter_eq_nil_iff]
    intro r hr
    simp [h r hr]
  simp [scanAll, this]

theorem interlockFault_frame (c : Conv) : KeepsAllBut s (s.interlockFault c) [.interlock] :=
  ((s.withdraw_frame c).trans (cancelWatch_frame _ c)).trans (releaseList_frame _ c _)

theorem headAdvanced_frame (c : Conv) : KeepsAllBut s (s.headAdvanced c) reach := by
  refine KeepsAllBut.trans (t := if (s.road c).watch.index? = some (s.track c).head then s.cancelWatch c else s)
    (.ite (s.cancelWatch_frame c).mono (.refl _ _)) ?_
  exact (evalWatch_frame _ c).mono.trans (request_frame _ c)

theorem clearFor_frame (c : Conv) (ms : Nat) (x : Sec) : KeepsAllBut s (s.clearFor c ms x) [.interlock] := by
  unfold clearFor
  exact .ite (s.modSec_frame x _) (.refl _ _)

theorem tailLeft_frame (c : Conv) (j : Nat) : KeepsAllBut s (s.tailLeft c j) [.interlock] := by
  unfold tailLeft
  split
  · exact .refl _ _
  · split
    · exact s.clearFor_frame c _ _
    · refine .ite (.refl _ _) (.ite ?_ (.refl _ _))
      exact (s.modGrp_frame _ _).trans (.forEach (fun t x => t.clearFor_frame c _ x) _ _)

theorem occupied_frame (x : Sec) : KeepsAllBut s (s.occupied x) [.interlock] := by
  unfold occupied
  split <;> first | exact s.modSec_frame x _ | exact .refl _ _

/-! ### Faults and passages (R100 to R106, R111) -/

theorem stopFaulty_frame (c : Conv) (f : ConvoyFault) : KeepsAllBut s (s.stopFaulty c f) reach := by
  unfold stopFaulty
  refine .ite (.refl _ _) ?_
  exact (((s.modConvoy_frame c _).mono.trans (hardStopAll_frame _ c).mono).trans (unitsDown_frame _ c).mono).trans
    (interlockFault_frame _ c).mono

theorem faultNotice_frame (c : Conv) (f : ConvoyFault) (n : Nat) : KeepsAllBut s (s.faultNotice c f n) [] :=
  s.raise_frame _ _

theorem fault_frame (c : Conv) (f : ConvoyFault) (n : Nat) : KeepsAllBut s (s.fault c f n) reach :=
  ((s.stopFaulty_frame c f).trans (scanAll_frame _ _)).trans (faultNotice_frame _ c f n).mono

/-- A convoy already STOPPED keeps its fault, and its road: the fault only tells its owner (R105). -/
theorem fault_stopped (c : Conv) (f : ConvoyFault) (n : Nat) (h : (s.convoy c).state = .stopped) :
    s.fault c f n = s.faultNotice c f n := by
  simp [fault, stopFaulty, faultRoad, h, scanAll_idle]

theorem enterWaiting_frame (c : Conv) : KeepsAllBut s (s.enterWaiting c) reach := by
  refine KeepsAllBut.trans (s.setState_frame c .waiting).mono ?_
  refine KeepsAllBut.trans (t := match (s.setState c .waiting).leader? c with
    | some a => (s.setState c .waiting).hardStop a
    | none => s.setState c .waiting) ?_ ((standDown_frame _ c).mono.trans (raise_frame _ _ _).mono)
  split
  · exact (hardStop_frame _ _).mono
  · exact .refl _ _

theorem standRest_frame (c : Conv) : KeepsAllBut s (s.standRest c) [.tracker, .governor, .dispatcher] :=
  .forEach (fun t u => .ite (.refl _ _) (t.standUnit_frame c u)) _ _

theorem checkArrived_frame (c : Conv) : KeepsAllBut s (s.checkArrived c) reach := by
  unfold checkArrived
  exact .ite (((s.setState_frame c _).mono.trans (standRest_frame _ c).mono).trans (raise_frame _ _ _).mono)
    (.refl _ _)

theorem enterArriving_frame (c : Conv) : KeepsAllBut s (s.enterArriving c) reach := by
  refine KeepsAllBut.trans (s.setState_frame c .arriving).mono ?_
  refine KeepsAllBut.trans (t := match (s.setState c .arriving).leader? c with
    | some a => (s.setState c .arriving).hardStop a
    | none => s.setState c .arriving) ?_ ((standDown_frame _ c).mono.trans (checkArrived_frame _ c))
  split
  · exact (hardStop_frame _ _).mono
  · exact .refl _ _

theorem advanceTail_frame (c : Conv) (j : Nat) : KeepsAllBut s (s.advanceTail c j) reach := by
  unfold advanceTail
  split
  · exact .refl _ _
  · exact .ite (((s.modTrack_frame c _).mono.trans (tailLeft_frame _ c _).mono).trans (checkArrived_frame _ c))
      (.refl _ _)

theorem handGap_frame (c : Conv) (k j g tg : Nat) : KeepsAllBut s (s.handGap c k j g tg) [.governor] := by
  unfold handGap
  split
  · exact .refl _ _
  · exact .ite (s.followerComputation_frame c _ k j g tg) (.refl _ _)

theorem memberBranch_frame (c : Conv) (k j : Nat) : KeepsAllBut s (s.memberBranch c k j) [.dispatcher] := by
  unfold memberBranch
  split
  · exact s.updateBranch_frame c _ j
  · exact .refl _ _

theorem memberCrossing_frame (c : Conv) (r : Crossing) : KeepsAllBut s (s.memberCrossing c r) reach := by
  unfold memberCrossing
  dsimp only
  refine KeepsAllBut.trans ?_ (advanceTail_frame _ c _)
  refine KeepsAllBut.trans ?_ (afterPassage_frame _ c _ _).mono
  refine KeepsAllBut.trans ?_ (memberBranch_frame _ c _ _).mono
  refine KeepsAllBut.trans ?_ (KeepsAllBut.ite (modRecord_frame _ c _ _).mono (.refl _ _))
  refine KeepsAllBut.trans ?_ (KeepsAllBut.ite (handGap_frame _ c _ _ _ _).mono (.refl _ _))
  exact (s.modRecord_frame c r.j _).mono

theorem leaderCrossing_frame (c : Conv) (x : Sec) : KeepsAllBut s (s.leaderCrossing c x) reach := by
  have h : ∀ t : State, KeepsAllBut t (t.noBrakeStop c x) reach := fun t => by
    unfold noBrakeStop
    exact .ite (t.enterWaiting_frame c) (.refl _ _)
  unfold leaderCrossing
  dsimp only
  refine KeepsAllBut.trans ?_ (afterPassage_frame _ c _ _).mono
  refine KeepsAllBut.trans ?_ (h _)
  refine KeepsAllBut.trans ?_ (recomputeTarget_frame _ c).mono
  refine KeepsAllBut.trans ?_ (headAdvanced_frame _ c)
  refine KeepsAllBut.trans ?_ (KeepsAllBut.ite (advanceTail_frame _ c _) (.refl _ _))
  exact (s.modTrack_frame c _).mono.trans (memberBranch_frame _ c _ _).mono

theorem overrun_frame (c : Conv) (x : Sec) : KeepsAllBut s (s.overrun c x) reach := by
  unfold overrun
  split
  · rename_i d _
    refine KeepsAllBut.trans ?_ (faultNotice_frame _ d _ _).mono
    refine KeepsAllBut.trans ?_ (faultNotice_frame _ c _ _).mono
    exact ((s.stopFaulty_frame c _).trans (stopFaulty_frame _ d _)).trans (scanAll_frame _ _)
  · exact (s.occupied_frame x).mono.trans (fault_frame _ c _ _)

theorem stray_frame (x : Sec) (d : Inp) : KeepsAllBut s (s.stray x d) reach := by
  unfold stray
  split
  · exact (s.occupied_frame x).mono.trans (raise_frame _ _ _).mono
  · exact (s.occupied_frame x).mono.trans (raise_frame _ _ _).mono
  · exact (s.occupied_frame x).mono.trans (raise_frame _ _ _).mono
  · exact s.fault_frame _ _ _
  · exact (s.raise_frame _ _).mono
  · exact .refl _ _

theorem entryPassage_frame (x : Sec) (d : Inp) : KeepsAllBut s (s.entryPassage x d) reach := by
  unfold entryPassage
  split
  · exact s.memberCrossing_frame _ _
  · exact s.leaderCrossing_frame _ x
  · exact s.overrun_frame _ x
  · exact s.stray_frame x d

theorem brakePassage_frame (x : Sec) : KeepsAllBut s (s.brakePassage x) reach := by
  unfold brakePassage
  split
  · refine KeepsAllBut.trans (s.modTrack_frame _ _).mono (.ite ?_ (.ite (modConvoy_frame _ _ _).mono (.refl _ _)))
    exact .ite (enterArriving_frame _ _) (.ite (.refl _ _) (enterWaiting_frame _ _))
  · exact .refl _ _

theorem gapLag_frame (c : Conv) (r : Crossing) : KeepsAllBut s (s.gapLag c r) [.tracker, .governor] :=
  KeepsAllBut.trans (s.modRecord_frame c _ _).mono (.ite (lagBoost_frame _ c _).mono (.refl _ _))

theorem gapLost_frame (c : Conv) (r : Crossing) : KeepsAllBut s (s.gapLost c r) reach := by
  refine KeepsAllBut.trans (s.modRecord_frame c r.j fun q => { q with running := false }).mono ?_
  unfold gapLost
  dsimp only
  split
  · exact fault_frame _ c _ _
  · exact .refl _ _

/-! ### Halts and the supply (R160, R161, R165) -/

theorem allUnitsDown_frame : KeepsAllBut s s.allUnitsDown [.tracker] :=
  .forEach (fun t c => .ite (t.unitsDown_frame c) (.refl _ _)) _ _

theorem enterHalt_frame : KeepsAllBut s s.enterHalt [.tracker, .governor, .dispatcher, .haltSupervisor] :=
  (((s.modHls_frame _).mono.trans (KeepsAllBut.forEach (fun t a => t.hardStop_frame a) _ _).mono).trans
    (modRds_frame _ _).mono).trans (allUnitsDown_frame _).mono

theorem causePresent_frame (c : Cause) :
    KeepsAllBut s (s.causePresent c) [.tracker, .governor, .dispatcher, .haltSupervisor] := by
  unfold causePresent
  dsimp only
  refine .ite (.refl _ _) (KeepsAllBut.trans ?_ (raise_frame _ _ _).mono)
  exact (s.modHls_frame _).mono.trans (KeepsAllBut.ite (.refl _ _) (enterHalt_frame _))

theorem causeAbsent_frame (c : Cause) : KeepsAllBut s (s.causeAbsent c) [.haltSupervisor] := s.modHls_frame _

theorem restartAll_frame : KeepsAllBut s s.restartAll [.convoyTable, .tracker, .governor, .dispatcher] :=
  .forEach (fun t c => .ite (t.restart_frame c) (.refl _ _)) _ _

theorem compareSupply_frame : KeepsAllBut s s.compareSupply [.governor, .dispatcher, .haltSupervisor] := by
  unfold compareSupply compareNormal compareLow
  refine .ite (.ite ?_ (.refl _ _)) (.ite ?_ (.refl _ _))
  · exact ((s.modHls_frame _).mono.trans (recomputeAllTargets_frame _).mono).trans (raise_frame _ _ _).mono
  · exact ((s.modHls_frame _).mono.trans (supplyLowered_frame _).mono).trans (raise_frame _ _ _).mono

/-! ### Inputs (R41, R46) -/

theorem updateChord_frame :
    KeepsAllBut s s.updateChord [.frontEnd, .tracker, .governor, .dispatcher, .haltSupervisor] := by
  have h : ∀ b, KeepsAllBut s { s with dfe := { s.dfe with chord := b } } [.frontEnd] := fun v b hb => by
    cases b <;> first | rfl | simp at hb
  unfold updateChord
  exact .ite ((h true).mono.trans (causePresent_frame _ _).mono)
    (.ite ((h false).mono.trans (causeAbsent_frame _ _).mono) (.refl _ _))

theorem addSeen_frame (d : Inp) : KeepsAllBut s (s.addSeen d) [.frontEnd] :=
  .forEach (fun t p b hb => by cases b <;> first | rfl | simp at hb) _ _

theorem passage_frame (d : Inp) : KeepsAllBut s (s.passage d) (.frontEnd :: reach) := by
  unfold passage
  refine .ite (.refl _ _) (KeepsAllBut.trans (s.addSeen_frame d).mono ?_)
  dsimp only
  split
  · exact (entryPassage_frame _ _ d).mono
  · exact (brakePassage_frame _ _).mono
  · exact .refl _ _

/-! ### Events (R156, R158) -/

/-- An event reaches what its effect reaches, and the ports. -/
theorem event_frame {bs : List Block} (f : State → State) (hf : ∀ t, KeepsAllBut t (f t) bs) :
    KeepsAllBut s (s.event f) (.consolePorts :: bs) := fun b hb => by
  obtain ⟨k, ps, h, -⟩ := s.event_spec f
  have hf := hf { s with eventNo := s.eventNo + 1 } b fun h => hb (by simp [h])
  rw [h]
  cases b <;> first | exact hf | simp at hb

/-- An event whose effect leaves the ports alone brings them notices only. -/
theorem event_ports {bs : List Block} (f : State → State) (hf : ∀ t, KeepsAllBut t (f t) bs)
    (hp : Block.consolePorts ∉ bs) : KeepsPorts s (s.event f) := fun q => by
  obtain ⟨k, ps, h, hn⟩ := s.event_spec f
  have hq : (f { s with eventNo := s.eventNo + 1 }).ports = s.ports := hf { s with eventNo := s.eventNo + 1 } _ hp
  have := hn q
  rw [State.port, hq] at this
  rw [h]
  exact this

end State

end Sys2Proof.Machine
end

