-- ==== Sys2Proof/Laws/Requests.lean ====
section
/-!
SUPPORT. What the generic checks make of a request (R149, R150), said once: which step ends its processing, and with what.
-/

namespace Sys2Proof.Machine

open Sys2Proof

set_option Elab.async false

/-- The state an owner block sees: the event numbered, the receiver of the port in HUNT (R148). -/
def State.heard (s : State) (p : Port) : State :=
  State.modPort { s with eventNo := s.eventNo + 1 } p fun q => { q with receiver := .hunt }

theorem State.heard_placesTaken (s : State) (p : Port) :
    ((s.heard p).port p).placesTaken = (s.port p).placesTaken := by
  rw [heard, State.port_modPort_self]
  rfl

variable (s : State) (p : Port) (k : Kind) (tag : Byte) (owner : State → Result)

/-- A port that does not listen discards the request (R146). -/
theorem State.serve_deaf (h : s.listens p = false) : s.serve p k tag owner = s := by simp [serve, h]

/-- A port whose reply queue is full leaves the request unprocessed (R149 step 1). -/
theorem State.serve_full (hr : s.raised = []) (h : s.listens p = true) (hf : 4 ≤ (s.port p).placesTaken) :
    s.serve p k tag owner = (s.heard p).looked := by
  have hf' : replyRoom ≤ ((s.heard p).port p).placesTaken := (s.heard_placesTaken p).symm ▸ hf
  rw [serve, if_pos h, event]
  change (if replyRoom ≤ ((s.heard p).port p).placesTaken then s.heard p else _).deliver.looked = _
  rw [if_pos hf', deliver_quiet _ (by simpa [heard] using hr)]

/-- A request that finds room is answered by steps 2 to 6 of R149; the notices of the event and the look of the
transmitters follow. -/
theorem State.serve_room (h : s.listens p = true) (hf : (s.port p).placesTaken < 4) :
    s.serve p k tag owner = (((s.heard p).checked p k owner).send p k tag).deliver.looked := by
  have hf' : ¬ replyRoom ≤ ((s.heard p).port p).placesTaken := by
    rw [s.heard_placesTaken p]
    exact Nat.not_le.mpr hf
  rw [serve, if_pos h, event]
  change (if replyRoom ≤ ((s.heard p).port p).placesTaken then s.heard p else _).deliver.looked = _
  rw [if_neg hf']
  rfl

/-- A port that serves listens. -/
theorem Serves.listens {s : State} {p : Port} (h : Serves s p) : s.listens p = true := by
  obtain ⟨-, ha, -, hr⟩ := h
  have : s.mu.phase ≠ .held := fun e => by simp [State.running, e] at hr
  simp [State.listens, ha, this]

/-- Past the load, a kind that the port's level allows reaches its owner block (R149 steps 2 to 4). -/
theorem State.serve_owner (h : Serves s p) (hl : k.levelZero = true → s.level p = 0) :
    s.serve p k tag owner = ((owner (s.heard p)).send p k tag).deliver.looked := by
  have h2 : (s.heard p).mu.phase ≠ .loading := fun e => by
    have hr := h.2.2.2
    simp [heard] at e
    simp [State.running, e] at hr
  have h3 : (k.levelZero && (s.heard p).level p != 0) = false := by
    cases hz : k.levelZero
    · rfl
    · have : s.level p = 0 := hl hz
      simpa [heard, State.level] using this
  rw [serve_room s p k tag owner h.listens h.2.2.1, checked, if_neg h2]
  simp [h3]

/-- A request refused changes nothing but the answering port's queue, and raises nothing. -/
theorem State.send_refusal (u : State) (code : ReplyCode) (detail : List Byte) :
    (u.refusal code detail).send p k tag = u.reply p k.code tag ⟨code, detail ++ k.tail u⟩ := rfl

/-- Where the owner block refuses what it sees, the whole request is the refusal. -/
theorem State.serve_refused (h : Serves s p) (hl : k.levelZero = true → s.level p = 0) (code : ReplyCode)
    (detail : List Byte) (ho : owner (s.heard p) = (s.heard p).refusal code detail) :
    s.serve p k tag owner
      = s.replied p (s.port p).lastConvoy (k.code ||| 0x80) tag code (detail ++ k.tail (s.heard p)) := by
  rw [serve_owner s p k tag owner h hl, ho, send_refusal, deliver_quiet]
  · simp [heard, reply, replied, State.modPort, PortState.after, replyMessage, perPort_put_put, State.port]
  · simpa [heard, reply] using h.1

end Sys2Proof.Machine
end

