-- ==== Sys2Proof/Tests/Slice0.lean ====
section
/-!
SUPPORT. The model's own tests. The layout is the eight sections of Table 1.8; expected results are the manual's
tables and worked examples, or hand calculation from its rules. A theorem named witness_… shows a concrete state and
operands that meet together all hypotheses of the statement of that name.
-/

namespace Sys2Proof.Tests

open Sys2Proof Sys2Proof.Machine

set_option Elab.async false

/-! ### The layout of Table 1.8 and small states on it -/

/-- An in-service section. -/
def road (kind : SecKind) (zone : Zone) (length : Nat) (entry : Inp) (brake : Option Inp) (succ0 succ1 : Option Nat)
    (group : Option Grp) : SectionRec :=
  ⟨kind, zone, length, entry, brake, succ0, succ1, group, false⟩

/-- The sections of Table 1.8, the others barred. -/
def clubSections : Tab 48 SectionRec :=
  let t := Tab.all 48 SectionRec.fallback
  let t := t.put 0 (road .plain 0 240 0 (some 1) (some 1) none none)
  let t := t.put 1 (road .fork 0 120 2 none (some 2) (some 5) none)
  let t := t.put 2 (road .plain 1 300 3 (some 4) (some 3) none none)
  let t := t.put 3 (road .plain 2 160 5 none (some 4) none (some 0))
  let t := t.put 4 (road .plain 1 400 6 (some 7) (some 0) none none)
  let t := t.put 5 (road .bay 3 200 8 (some 9) none none none)
  let t := t.put 6 (road .plain 2 160 10 none (some 7) none (some 0))
  t.put 7 (road .plain 1 350 11 (some 12) (some 0) none none)

/-- The map of the worked example of Chapter 1: every input enabled, active high; filter code 4 on inputs 4 to 7, off on
inputs 0 to 3, 3 elsewhere. -/
def club : LayoutMap where
  sections := clubSections
  profiles := ((Tab.all 8 Profile.fallback).put 0 ⟨48, 16, 1, 4⟩).put 1 ⟨30, 12, 2, 2⟩
  detectors := Tab.all 64 ⟨true, true⟩
  filters := ((Tab.all 16 3).put 0 0).put 1 4
  groups := (Tab.all 8 (GroupList.of [])).put 0 (.of [3, 6])
  settings := ⟨⟨0, 1, 1, 3⟩, 1, 400, 4⟩

/-- The part after the load of `club`: ports A, B and C attached, every input armed. -/
def ready : State :=
  { State.reset with
    pins := ⟨true, 6000, false⟩
    mu := ⟨.ready, false, 0, club, .torn, none, 0⟩
    dfe := ⟨Tab.all 64 ⟨false, .inactive, none⟩, PerPort.all [], false⟩
    sil := Interlock.ofMap club
    rds := { Dispatcher.reset with slotInMs := 10 }
    ports := ⟨PortState.fresh true 0 true, PortState.fresh true 0 true, PortState.fresh true 0 true,
      PortState.fresh false presentMs false⟩ }

/-- `s` with convoy `c` formed on sections `held`, its trucks ACTIVE and its follower units in RUN. -/
def withConvoy (s : State) (c : Conv) (owner : Option Port) (st : ConvoyState) (ms : List Member) (route : List Sec)
    (head tail : Nat) (held : List Sec) : State :=
  let s := s.modConvoy c fun v => { v with owner := owner, state := st, members := ms }
  let s := s.forEach (truckAddrs ms) fun s a =>
    (s.setUsage a (.active c)).modRadio a fun r => { r with deadline := some 100 }
  let s := s.modTrack c fun _ => ⟨head, tail, [], false, List.replicate (unitCount ms - 1) .run⟩
  (s.modRoad c fun _ => ⟨route, .idle, .idle⟩).forEach held fun s x => s.modSec x fun q => { q with dyn := .held c }

/-- Two trucks of 30 cm. -/
def pair : List Member := [.truck 0 30, .truck 1 30]

/-- Convoy 1 of port A, two trucks, STANDING in section 0 with the route 0, 1, 2. -/
def standing : State := withConvoy ready 0 (some .a) .standing pair [0, 1, 2] 0 0 [0]

/-- Convoy 1 ROLLING, section 1 granted and its fork watch EFFECTIVE; its trucks at speed 30. -/
def rolling : State :=
  let s := withConvoy ready 0 (some .a) .rolling pair [0, 1, 2] 0 0 [0, 1]
  let s := s.modRoad 0 fun w => { w with watch := .effective 1 }
  s.forEach [0, 1] fun s a => s.modSpeed a fun _ => ⟨30, 30⟩

/-- Convoy 1 with its leader in section 1 and its second truck, at speed 20, awaited there for 1260 ms. -/
def crossing : State :=
  let s := withConvoy ready 0 (some .a) .rolling pair [0, 1, 2] 1 0 [0, 1]
  let s := s.modTrack 0 fun t => { t with records := [⟨1, 1, 1260, true, ⟨1000, 2000, 6000⟩, false⟩] }
  (s.modSpeed 0 fun _ => ⟨30, 30⟩).modSpeed 1 fun _ => ⟨20, 20⟩

/-- Convoy 1 STOPPED with LOST, its leader in section 1. -/
def stopped : State :=
  withConvoy ready 0 (some .a) .stopped pair [0, 1, 2] 1 0 [0, 1] |>.modConvoy 0 fun v =>
    { v with fault := some ⟨.lost, 1, 1⟩ }

/-- Convoy 1 HELD in the last section of its route. -/
def held (r : Resume) : State :=
  withConvoy ready 0 (some .a) .held pair [0] 0 0 [0] |>.modConvoy 0 fun v => { v with resume := some r }

/-- Convoy 2, one truck, of port B, in section 2, QUEUED for nothing. -/
def withSecond (s : State) : State := withConvoy s 1 (some .b) .rolling [.truck 5 40] [2, 3, 4] 0 0 [2]

/-- Convoy 1 with lookahead 1. -/
def near (s : State) : State := s.modConvoy 0 fun v => { v with params := { v.params with look := 1 } }

/-- The part HALTED by REQUEST. -/
def halted (s : State) : State := s.modHls fun h => { h with halted := true, request := true }

/-- The state a command leads to. -/
def after (i : Instr) (s : State) : State :=
  match exec i s with
  | .next t => t
  | .fault _ => s
  | .refused _ => s

/-- The body of the reply that a port has begun to send. -/
def answer (s : State) (p : Port) : List Byte :=
  match (s.port p).tx with
  | .idle => []
  | .sending bytes _ _ _ => (bytes.drop 4).dropLast

/-! ### Which commands are refused as ill-formed -/

theorem test_brownOut_needs_a_low_supply :
    Instr.wellFormed (.brownOut 4200) = false ∧ Instr.wellFormed (.brownOut 4199) = true := by decide

theorem test_release_needs_a_supply :
    Instr.wellFormed (.powerResetRelease 4199) = false ∧ Instr.wellFormed (.powerResetRelease 4200) = true := by decide

theorem test_unknownKind_is_unknown :
    Instr.wellFormed (.unknownKind .a 0x3A 0 []) = false ∧ Instr.wellFormed (.unknownKind .a 0x3B 0 []) = true := by
  decide

theorem test_body_of_at_most_72_bytes :
    Instr.wellFormed (.readMap .a 0 (List.replicate 73 0)) = false
      ∧ Instr.wellFormed (.readMap .a 0 (List.replicate 72 0)) = true := by decide

theorem test_boundary_index_1_to_15 :
    Instr.wellFormed (.gapTimerTlag 0 0) = false ∧ Instr.wellFormed (.gapTimerTlag 0 15) = true
      ∧ Instr.wellFormed (.gapTimerTlost 0 16) = false ∧ Instr.wellFormed (.gapTimerTlost 0 1) = true := by decide

theorem test_supply_events_above_brown_out :
    Instr.wellFormed (.supplyLow 4199) = false ∧ Instr.wellFormed (.supplyOk 4199) = false
      ∧ Instr.wellFormed (.supplyLow 4200) = true := by decide

/-! ### The manual's own examples -/

/-- The whole-map check of Table 1.8 finds the map valid, and its lookups. -/
theorem test_table_1_8 :
    club.valid = true ∧ club.roleOf 2 = .entry 1 ∧ club.roleOf 13 = .none ∧ club.choiceTo 1 5 = some true
      ∧ settleTime (club.profileOf 1).settleCode = 200 ∧ club.holdTimeOf 2 = 750 ∧ club.groupHoldTime 0 = 1500 := by
  decide +kernel

/-- Section 4, extended as the example of Chapter 1 does, fails condition 8 against section 8. -/
theorem test_unbar_clash :
    let four : SectionRec := ⟨.fork, 1, 400, 6, some 7, some 0, some 8, none, true⟩
    let eight : SectionRec := ⟨.bay, 3, 220, 13, some 7, none, none, none, false⟩
    LayoutMap.singleCheck { club with sections := (club.sections.put 4 four).put 8 eight } 4 = some (8, some 8) := by
  decide +kernel

/-- Table 3.2: input 6, check time 10 ms. -/
theorem test_table_3_2_truck_is_accepted :
    let s := ready.modInput 6 fun _ => ⟨true, .rising, some 0⟩
    s.checkLeft 6 = some 10 ∧ ((after (.checkTimerExpiry 6) s).input 6).cond = .active
      ∧ (after (.checkTimerExpiry 6) s).dfe.seen.a = [6] := by
  decide +kernel

/-- Table 3.3: the last chord input to be accepted asserts the chord, which is no passage; Table 10.2: the part halts. -/
theorem test_table_3_3_chord_asserted :
    let s := (ready.modInput 60 fun _ => ⟨true, .active, none⟩).modInput 61 fun _ => ⟨true, .rising, some 3⟩
    let t := after (.checkTimerExpiry 61) s
    t.dfe.chord = true ∧ t.hls = ⟨true, false, true, false, false⟩ ∧ t.dfe.seen.a = [] ∧ t.rds.broadcasts = 3 := by
  decide +kernel

/-- R52: eight trucks of 60 cm with a stand gap of 50 cm measure 830 cm; Table 4.5: 199 cm. -/
theorem test_convoy_lengths :
    convoyLength (List.replicate 8 (.truck 0 60)) 50 = 830
      ∧ convoyLength [.truck 4 30, .trailer 42, .trailer 42, .truck 10 28, .trailer 42] 15 = 199 := by
  decide

/-- R64: the two examples of values brought into order. -/
theorem test_ordered_values :
    (orderedValues [40, 8, 2, 4, 2, 15, 2500, 2400, 30000]).2 = ⟨2500, 2600, 20000⟩
      ∧ (orderedValues [40, 8, 2, 4, 2, 15, 800, 900, 900]).2 = ⟨800, 900, 1000⟩ := by
  decide

/-- Table 5.5: convoy 5's request for section 12 closes the circle at the second convoy (here sections 0 and 2). -/
theorem test_table_5_5_circle :
    let s := (withSecond standing).modRoad 0 fun w => { w with req := .queued (.sec 2) }
    s.chainCloses 1 chainLimit (.sec 0) = true ∧ s.chainCloses 0 chainLimit (.sec 2) = false := by
  decide +kernel

/-- Table 7.2: cases A to H. -/
theorem test_table_7_2 :
    [followerSpeed 1260 1000 30 8 36, followerSpeed 450 1000 30 8 36, followerSpeed 640 1000 30 8 36,
      followerSpeed 520 1000 1 31 36, followerSpeed 1800 1000 0 8 36, followerSpeed 2900 1000 34 8 36,
      followerSpeed 1100 1000 22 8 24, followerSpeed 880 1000 20 8 36] = [32, 15, 28, 1, 0, 36, 22, 20] := by
  decide

/-- R132: a frame to truck 6 at speed 28, branch bit 1, head lights on; and the broadcast frame. -/
theorem test_frames :
    frameBytes 6 true 28 (auxBits true false false false) = [0x46, 0x5C, 0x01, 0x41]
      ∧ broadcastFrame = [0x40, 0x00, 0x00, 0x1A] := by
  decide

/-- R139: some values of P. -/
theorem test_refresh_periods :
    refreshPeriod 200 13 = 260 ∧ refreshPeriod 400 32 = 640 ∧ refreshPeriod 1000 32 = 1000 ∧ refreshPeriod 400 0 = 400 := by
  decide

/-- A GRANTED, WAITING, REFRESH_LATE or LOST notice of Table 9.6. -/
def queued (k : NoticeKind) : Notice := ⟨k, none, none, none, none, 0⟩

/-- Tables 9.6 and 9.7: four arrivals at a full queue. -/
theorem test_table_9_7 :
    let nine : List NoticeKind := List.replicate 9 .granted
    let seven : List NoticeKind := [.granted, .waiting, .granted, .granted, .refreshLate, .granted, .lost]
    let full := (seven ++ nine).map queued
    let b := ([.granted, .waiting, .lost, .overrun] : List NoticeKind).foldl (fun q k => joinQueue q (queued k)) full
    b.map Notice.kind = [.granted, .refreshLate, .granted, .lost] ++ nine ++ [.waiting, .lost, .overrun] := by
  decide +kernel

/-! ### Witnesses: the step, reset and load -/

theorem witness_StepRunsTheFrontCommand :
    State.pending { ready with pending := [.rampTick, .powerReset] } = .rampTick :: [.powerReset] := rfl

/-- Nothing is due, one event is due, several are due. -/
theorem witness_StepOnAnEmptyQueueLetsThePartGoOn :
    ready.pending = [] ∧ ready.due = [] ∧ State.due { ready with hwg := { ready.hwg with tickInMs := 0 } } = [.rampTick]
      ∧ (State.due { ready with
          hwg := { ready.hwg with tickInMs := 0 }, sil := { ready.sil with
            sections := ready.sil.sections.put 47 ⟨.clearing 0, 0, []⟩ } }) = [.clearanceTimerExpiry 47, .rampTick] := by
  decide +kernel

/-- R166: 4.4 V ends a brown-out, 4.2 V is enough without one; brown-out that ends while RESETN is low has ended (the
supply goes to 4.0, 5.0 and 4.3 V). -/
theorem witness_ReleaseBeginsTheLoad :
    let high : State := { State.reset with pins := ⟨true, 4000, true⟩ }
    let low : State := { State.reset with pins := ⟨false, 4000, true⟩ }
    State.reset.raised = [] ∧ State.reset.mu.phase = .held ∧ State.reset.pins.brownOut = true
      ∧ (after (.powerResetRelease 4400) State.reset).mu.phase = .loading
      ∧ (after (.powerResetRelease 4399) State.reset).mu.phase = .held
      ∧ (after (.powerResetRelease 4200) { State.reset with pins := ⟨true, 4300, false⟩ }).mu.phase = .loading
      ∧ (after (.supplyOk 4400) high).mu.phase = .loading ∧ (after (.supplyOk 4399) high).mu.phase = .held
      ∧ (after (.powerResetRelease 4300) (after (.supplyOk 5000) low)).mu.phase = .loading
      ∧ ready.mu.phase ≠ .held := by
  decide +kernel

/-- A part in LOADING with a store. -/
def loading (c : StoreContents) : State :=
  { State.reset with pins := ⟨true, 6000, false⟩, mu := { State.reset.mu with phase := .loading, store := c } }

/-- The first clause for each kind of store contents: a torn one, a valid image, an image that fails its check value, an
image that fails the structure stage; and attached ports told MAP_INVALID. -/
theorem witness_EndOfTheLoadStartsThePart :
    let told : State := { loading .torn with ports := ready.ports }
    (loading .torn).raised = [] ∧ (loading .torn).mu.phase = .loading ∧ (loading .torn).hls.supplyLow = false
      ∧ (∀ m chk, (loading (.image m chk)).mu.store = .image m chk) ∧ club.valid = true
      ∧ LayoutMap.valid { club with settings := { club.settings with refresh := 1010 } } = false
      ∧ (after (.endOfTheLoad true) (loading .torn)).map.settings = ⟨⟨0, 3, 3, 3⟩, 0, 400, 4⟩
      ∧ told.raised = [] ∧ told.mu.phase = .loading ∧ (told.port .a).attached = true
      ∧ ((after (.endOfTheLoad true) told).port .a).batchSeq = 1
      ∧ (after (.endOfTheLoad true) told).port .d = told.port .d := by
  refine ⟨rfl, rfl, rfl, fun _ _ => rfl, ?_⟩
  decide +kernel

/-! ### Witnesses: ports -/

/-- At port D ATTACH starts the watch of 50 ms, at whose end, by itself or commanded, the port attaches; a DETACH before takes
the change back. A port whose line showed its console through the power reset attaches 20 ms on. -/
theorem witness_AttachGivesAFreshPort :
    let kept (ms : Nat) : State := { ready with ports := ready.ports.put .d (PortState.fresh true ms false) }
    let changed := after (.attach .d) ready
    (ready.port .d).present = false ∧ (ready.port .a).present = true ∧ (ready.port .a).attached = true
      ∧ (kept 20).raised = [] ∧ (kept 20).mu.phase ≠ .held ∧ ((kept 20).port .d).present = true
      ∧ ((kept 20).port .d).attached = false
      ∧ changed.now = 0 ∧ changed.watchLeft .d = some 50 ∧ (changed.port .d).attached = false
      ∧ (after (.attach .d) changed).now = 50 ∧ ((after (.attach .d) changed).port .d).attached = true
      ∧ (after (.detach .d) changed).watchLeft .d = none
      ∧ (after (.attach .d) (kept 20)).now = 20 ∧ (kept 0).due = [.attach .d] := by
  decide +kernel

theorem witness_DetachOrphansThePortsConvoys :
    let changed := after (.detach .a) standing
    (standing.port .a).present = true ∧ (standing.port .d).present = false ∧ standing.listens .d = false
      ∧ changed.raised = [] ∧ (changed.port .a).present = false ∧ changed.listens .a = true
      ∧ (changed.convoy 0).owner = some .a ∧ (changed.advance 50).due.contains (.detach .a)
      ∧ (after (.detach .a) changed).now = 50 ∧ ((after (.detach .a) changed).convoy 0).owner = none
      ∧ ((after (.detach .a) changed).convoy 0).state = .standing := by
  decide +kernel

/-- Port A sending, with three replies waiting and a fourth place reserved. -/
def full : State :=
  ready.modPort .a fun q =>
    { q with replies := List.replicate 3 ⟨0x81, 0, [0]⟩, reserved := true, tx := .sending [0] 40 false [] }

theorem witness_BrokenAndUnheardMessagesAreDiscarded :
    Instr.asMessage (.allStop .d 5 []) = some (.d, ⟨0x38, 5, []⟩) ∧ ready.listens .d = false
      ∧ Instr.asMessage (.allStop .a 5 []) = some (.a, ⟨0x38, 5, []⟩) ∧ full.raised = [] ∧ full.listens .a = true
      ∧ (full.port .a).placesTaken = 4 ∧ (after (.allStop .a 5 []) full).hls.halted = false
      ∧ ready.raised = [] ∧ ready.listens .b = true
      ∧ ((after (.interByteGap .b 0x3C) ready).port .b).receiver = .awaitLength := by
  decide +kernel

/-- A part whose commit is in flight. -/
def committing : State := { ready with mu := { ready.mu with phase := .committing, commit := some ⟨.a, 9, club, 400⟩ } }

/-- In LOADING an attached port's request is BUSY; the unknown kind, the level and the commit clauses. -/
theorem witness_RequestsPassTheGenericChecks :
    (let s : State := { loading .torn with ports := ready.ports }
     s.raised = [] ∧ (s.port .a).attached = true ∧ (s.port .a).placesTaken < 4 ∧ s.mu.phase = .loading
       ∧ answer (after (.allStop .a 5 []) s) .a = 0x09 :: s.haltBytes)
      ∧ Instr.wellFormed (.unknownKind .b 0x09 5 []) = true ∧ ready.running = true
      ∧ answer (after (.unknownKind .b 0x09 5 []) ready) .b = [0x0A]
      ∧ ready.level .b ≠ 0 ∧ answer (after (.bar .b 5 [0]) ready) .b = [0x03]
      ∧ committing.mu.phase = .committing ∧ committing.level .a = 0 ∧ committing.raised = []
      ∧ (committing.port .a).placesTaken < 4 ∧ answer (after (.readMap .b 5 [4, 0]) committing) .b = [0x09] := by
  decide +kernel

/-! ### Witnesses: map requests -/

/-- The EDIT_SECTION body that makes section 8 a BAY of 220 cm with entry detector 13 and brake detector 14. -/
def bayEntry : List Byte := [8, 14, 220, 0, 13, 0x8E, 0, 0, 0]

/-- Refused as no entry, accepted for barred section 8, BAD_STATE for section 0 in service; and records at the ends of
their ranges. -/
theorem witness_EditSectionReplacesTheRecord :
    Serves ready .a ∧ ready.level .a = 0 ∧ ready.mu.phase = .ready ∧ sectionEntry [48, 0, 20, 0, 0, 0, 0x80, 0, 0] = none
      ∧ sectionEntry bayEntry = some (8, ⟨.bay, 3, 220, 13, some 14, none, none, none, true⟩)
      ∧ (ready.sec 8).dyn = .barred ∧ (ready.sec 8).queue = [] ∧ (∀ c, ready.formed c = false)
      ∧ (sectionEntry (0 :: bayEntry.tail)).isSome = true ∧ (ready.sec 0).dyn ≠ .barred
      ∧ sectionEntry (sectionBytes 47 ⟨.fork, 15, 2000, 59, some 59, some 47, some 0, some 7, false⟩)
        = some (47, ⟨.fork, 15, 2000, 59, some 59, some 47, some 0, some 7, true⟩)
      ∧ sectionEntry (sectionBytes 0 ⟨.plain, 0, 20, 0, none, none, none, none, true⟩)
        = some (0, ⟨.plain, 0, 20, 0, none, none, none, none, true⟩)
      ∧ answer (after (.editSection .a 5 bayEntry) ready) .a = 0 :: bayEntry.set 1 0x4E := by
  decide +kernel

/-- A profile is edited with its caps clamped (R19); with a section of its zones held, BAD_STATE. -/
theorem witness_EditZoneClampsTheCaps :
    profileEntry [8, 48, 16, 17] = none ∧ profileEntry [0, 3, 31, 17] = some (0, ⟨3, 31, 1, 4⟩)
      ∧ (∀ x c, (ready.sectionRec x).zone.1 / 2 = 0 → (ready.sec x).dyn ≠ .held c)
      ∧ Serves standing .a ∧ standing.level .a = 0 ∧ standing.mu.phase = .ready
      ∧ (standing.sectionRec 0).zone.1 / 2 = 0 ∧ (standing.sec 0).dyn = .held 0
      ∧ (after (.editZone .a 5 [0, 3, 31, 17]) ready).map.profiles.nth 0 = ⟨4, 4, 1, 4⟩
      ∧ answer (after (.editZone .a 5 [0, 3, 31, 17]) ready) .a = [0x01, 3, 0, 4, 4, 17] := by
  decide +kernel

theorem ready_chord_agrees : ChordAgrees ready := by
  unfold ChordAgrees
  decide +kernel

theorem witness_EditDetectorRestartsTheReportedInputs :
    Serves ready .a ∧ ready.level .a = 0 ∧ ready.mu.phase = .ready ∧ detectorEntry [64, 1, 1, 3] = none
      ∧ ChordAgrees ready ∧ detectorEntry [5, 1, 1, 3] = some (5, ⟨true, true⟩, 3)
      ∧ ((after (.editDetector .a 5 [5, 1, 1, 3]) ready).input 6).cond = .idle
      ∧ ((after (.editDetector .a 5 [5, 1, 1, 3]) ready).input 8).cond = .inactive := by
  refine ⟨?_, ?_, ?_, ?_, ready_chord_agrees, ?_, ?_, ?_⟩ <;> decide +kernel

/-- A number twice, nine numbers, number 48 and group 8 are refused; group 1 takes sections 8 and 47; group 0, whose
sections are in service, is BAD_STATE. -/
theorem witness_EditGroupReplacesTheList :
    ¬ ([8, 8] : List Byte).Nodup ∧ 8 < ([0, 1, 2, 3, 4, 5, 6, 7, 8] : List Byte).length
      ∧ groupEntry [1, 47, 8] = some (1, [8, 47]) ∧ (ready.grp 1).holder = none
      ∧ (∀ x : Sec, x.1 ∈ ready.map.groupList 1 ++ [8, 47] → (ready.sec x).dyn = .barred)
      ∧ groupEntry [0] = some (0, []) ∧ (ready.sec 3).dyn ≠ .barred
      ∧ answer (after (.editGroup .a 5 [1, 47, 8]) ready) .a = [0x00, 1, 2, 8, 47]
      ∧ answer (after (.editGroup .a 5 [0]) ready) .a = [0x04] := by
  decide +kernel

/-- Refresh 1009 is clamped to 1000 and named by bit 4; selection 4 and settings with no level 0 are refused. -/
theorem witness_EditSettingsTakesEffectAtOnce :
    Serves ready .a ∧ ready.level .a = 0 ∧ ready.mu.phase = .ready ∧ ChordAgrees ready
      ∧ settingsEntry [0, 1, 1, 3, 3, 0xF1, 3, 15] = some ⟨⟨0, 1, 1, 3⟩, 3, 1009, 15⟩
      ∧ (∃ q, PerPort.nth ⟨0, 1, 1, 3⟩ q = 0)
      ∧ (∀ x, ∀ d ∈ chordInputs 3, (ready.sectionRec x).entry ≠ d ∧ (ready.sectionRec x).brake ≠ some d)
      ∧ settingsEntry [0, 1, 1, 3, 4, 0xF1, 3, 15] = some ⟨⟨0, 1, 1, 3⟩, 4, 1009, 15⟩
      ∧ answer (after (.editSettings .a 5 [0, 1, 1, 3, 3, 0xF1, 3, 15]) ready) .a
        = [0x01, 16, 0, 1, 1, 3, 3, 0xE8, 3, 15] := by
  refine ⟨?_, ?_, ?_, ready_chord_agrees, ?_, ⟨.a, rfl⟩, ?_, ?_, ?_⟩ <;> decide +kernel

theorem witness_CommitsEndByTheirReadBack :
    Serves ready .a ∧ ready.level .a = 0 ∧ ready.mu.phase = .ready ∧ committing.raised = []
      ∧ committing.mu.phase = .committing ∧ committing.mu.commit = some ⟨.a, 9, club, 400⟩
      ∧ (after (.commitMap .a 9 []) ready).mu.phase = .committing
      ∧ (after (.commitMap .a 9 []) ready).port .a = { ready.port .a with reserved := true }
      ∧ (after (.commitEnd .torn) committing).mu.phase = .ready := by
  decide +kernel

/-! ### Witnesses: queries -/

theorem test_queries_answer :
    Serves ready .b ∧ ready.mu.phase = .ready ∧ mapEntryArg [0, 1] = some (.sec 1) ∧ mapEntryArg [5, 0] = none
      ∧ Serves standing .b ∧ standing.named .b 1 = some 0 ∧ secArg 47 = some 47
      ∧ answer (after (.readMap .b 5 [0, 1]) ready) .b = [0x00, 1, 1, 120, 0, 2, 0, 0x82, 0x85, 0]
      ∧ answer (after (.querySection .b 5 [0]) standing) .b = [0x00, 0, 1, 1, 0, 0, 0, 0, 0xFF, 0, 0]
      ∧ answer (after (.queryConvoy .b 5 [1]) standing) .b = [0x00, 1, 9, 2, 0x81, 30, 0x82, 30,
        40, 8, 2, 4, 2, 15, 0xE8, 3, 0xD0, 7, 0x70, 0x17, 0, 0xFF, 0xFF, 3, 0, 1, 2, 0, 0, 0, 0, 0] := by
  decide +kernel

/-- Table 3.2: port A's query shows detector 6 in its set and empties it; port C's set still holds 6. Bodies of a wrong
length. -/
theorem witness_QueriesAnswerByWhatStands :
    let s : State := { ready with dfe := { ready.dfe with seen := ⟨[6], [], [6], []⟩ } }
    Serves s .a ∧ s.mu.phase = .ready ∧ mapEntryArg [0, 1] = some (.sec 1) ∧ mapEntryArg [5, 0] = none
      ∧ standing.named .b 1 = some 0 ∧ Serves standing .b ∧ secArg 47 = some 47 ∧ (47 < (48 : Byte).toNat)
      ∧ answer (after (.querySection .a 5 []) s) .a = [0x05] ∧ answer (after (.queryDetectors .a 5 [0]) s) .a = [0x05]
      ∧ answer (after (.queryDetectors .a 5 []) s) .a
        = [0x00, 0, 0, 0, 0, 0, 0, 0, 0, 0x40, 0, 0, 0, 0, 0, 0, 0, 0]
      ∧ (after (.queryDetectors .a 5 []) s).dfe.seen = ⟨[], [], [6], []⟩ := by
  decide +kernel

/-! ### Witnesses: convoys -/

/-- The queue law from its clauses for sections, for groups and for convoys. -/
theorem queuesAgree_of {s : State} (hx : ∀ x, ∀ e ∈ (s.sec x).queue, (s.road e.conv).req = .queued (.sec x))
    (hg : ∀ g, ∀ e ∈ (s.grp g).queue, (s.road e.conv).req = .queued (.grp g))
    (hu : ∀ c, s.formed c = false → s.road c = ⟨[], .idle, .idle⟩) : QueuesAgree s := by
  refine ⟨fun r => ?_, hu⟩
  cases r with
  | sec x => exact hx x
  | grp g => exact hg g

theorem standing_laws : MembersActive standing ∧ QueuesAgree standing :=
  ⟨by unfold MembersActive; decide +kernel, queuesAgree_of (by decide +kernel) (by decide +kernel) (by decide +kernel)⟩

/-- No number, 13, and 0 without a last convoy name none; 12 and 1 do; port B neither owns convoy 1 nor is at level 0. -/
theorem witness_ConvoyRequestsResolveTheConvoyAndCheckItsOwner :
    Instr.asMessage (.hold .b 5 [1]) = some (.b, ⟨0x16, 5, [1]⟩) ∧ Serves standing .b
      ∧ standing.named .b 13 = none ∧ standing.named .b 0 = none ∧ standing.named .b 12 = some 11
      ∧ standing.named .b 1 = some 0 ∧ standing.owns .b 0 = false ∧ standing.level .b ≠ 0
      ∧ answer (after (.hold .b 5 [1]) standing) .b = [0x02]
      ∧ ((after (.hold .b 5 [1]) standing).port .b).lastConvoy = some 0
      ∧ Instr.asMessage (.hold .a 5 [1, 0]) = some (.a, ⟨0x16, 5, [1, 0]⟩) ∧ Serves standing .a ∧ MayCommand standing .a 0
      ∧ answer (after (.hold .a 5 [1, 0]) standing) .a = [0x05] ∧ answer (after (.queryConvoy .b 5 []) standing) .b = [0x05]
      ∧ ((after (.queryConvoy .b 5 [1]) standing).port .b).lastConvoy = none := by
  decide +kernel

/-- Convoy 1 as an orphan (Table 4.6): port B, not at level 0, may claim it STANDING and not ROLLING; port A may release
what it owns. -/
theorem witness_ClaimAndReleaseSetAndClearTheOwner :
    let s := standing.modConvoy 0 fun v => { v with owner := none }
    let r := rolling.modConvoy 0 fun v => { v with owner := none }
    Serves s .b ∧ s.named .b 1 = some 0 ∧ (s.convoy 0).owner = none ∧ (s.convoy 0).state = .standing
      ∧ ((after (.claim .b 5 [1]) s).convoy 0).owner = some .b ∧ r.level .b ≠ 0
      ∧ answer (after (.claim .b 5 [1]) r) .b = [0x04]
      ∧ Serves standing .a ∧ standing.named .a 1 = some 0 ∧ standing.owns .a 0 = true ∧ standing.owns .b 0 = false
      ∧ ((after (.releaseClaim .a 5 [1]) standing).port .a).notices.map Notice.kind = [.orphaned] := by
  decide +kernel

/-- Bay 5 with stock 3 and convoy 7 of port B (Chapter 4, "a convoy that does not fit"), with a given stand gap. -/
def baying (gap : Nat) : State :=
  (ready.modSec 5 fun _ => ⟨.parked, 3, []⟩).modConvoy 6 fun v =>
    { v with owner := some .b, params := { v.params with standGap := gap } }

/-- The member list of Table 4.5. -/
def bayMembers : List Byte := [0x85, 30, 0, 42, 0, 42, 0x8B, 28, 0, 42]

/-- The member list read. -/
def bayTrain : List Member := [.truck 4 30, .trailer 42, .trailer 42, .truck 10 28, .trailer 42]

/-- The refusals and the acceptance at their boundaries: 199 cm fit a section of 200, 209 do not; a list that fails, a
section of a group, a convoy already formed, a truck already ACTIVE. -/
theorem witness_FormMakesAStandingConvoy :
    (let s := baying 15
     Serves s .b ∧ s.named .b 7 = some 6 ∧ s.owns .b 6 = true ∧ secArg 5 = some 5
       ∧ (memberPairs bayMembers).map memberList = some (.ok bayTrain)
       ∧ (s.sectionRec 5).group = none ∧ (s.convoy 6).state = .unformed ∧ s.hls.halted = false
       ∧ (s.sec 5).dyn = .parked ∧ (∀ a ∈ truckAddrs bayTrain, s.usage a = .free)
       ∧ (bayTrain.map Member.len).sum + (unitCount bayTrain - 1) * (s.convoy 6).params.standGap = 199
       ∧ (s.sectionRec 5).length = 200 ∧ s.owns .a 6 = false ∧ (s.sectionRec 3).group ≠ none
       ∧ (memberPairs [0x85, 9]).map memberList = some (.error 0)
       ∧ ((after (.form .b 5 (7 :: 5 :: bayMembers)) s).sec 5) = ⟨.held 6, 0, []⟩
       ∧ ((after (.form .b 5 (7 :: 5 :: bayMembers)) s).convoy 6).members = bayTrain
       ∧ ((after (.form .b 5 (7 :: 5 :: bayMembers)) s).rds.period) = 400)
      ∧ answer (after (.form .b 5 (7 :: 5 :: bayMembers)) (baying 25)) .b = [0x07, 209, 0, 200, 0]
      ∧ standing.usage 0 ≠ .free ∧ (standing.convoy 0).state ≠ .unformed := by
  decide +kernel

/-- The member list of REFORM in Chapter 4: truck 11's unit is dropped and its trailer left in the bay. -/
theorem witness_ReformExchangesMembers :
    let s := withConvoy ready 6 (some .b) .standing bayTrain [5] 0 0 [5]
    let ms : List Member := [.truck 4 30, .trailer 42, .trailer 42]
    MembersActive s ∧ Commands s .b 7 6 ∧ (memberPairs [0x85, 30, 0, 42, 0, 42]).map memberList = some (.ok ms)
      ∧ (s.convoy 6).state = .standing ∧ (s.track 6).tail = (s.track 6).head ∧ s.headSec? 6 = some 5
      ∧ (s.road 6).route.getLast? = some 5
      ∧ (∀ a ∈ truckAddrs ms, s.usage a = .free ∨ a ∈ truckAddrs (s.members 6)) ∧ s.map.isBay 5 = true
      ∧ convoyLength ms (s.convoy 6).params.standGap ≤ min (s.sectionRec 5).length (s.sectionRec 5).length
      ∧ ((after (.reform .b 5 [7, 0x85, 30, 0, 42, 0, 42]) s).sec 5).stock = 1
      ∧ (after (.reform .b 5 [7, 0x85, 30, 0, 42, 0, 42]) s).usage 10 = .retiring 6 := by
  unfold MembersActive
  decide +kernel

/-- REFORM's checks in order: half a member, a trailer of 9 cm, a ROLLING convoy, a truck of another convoy, a trailer
dropped outside a bay, and 255 cm in a section of 240. -/
theorem test_reform_refusals :
    let s := withConvoy (withConvoy ready 0 (some .a) .standing [.truck 0 30, .trailer 40] [0] 0 0 [0]) 1 (some .a)
      .standing [.truck 5 40] [2] 0 0 [2]
    Commands s .a 1 0 ∧ (s.convoy 0).state = .standing ∧ (s.track 0).tail = (s.track 0).head ∧ s.headSec? 0 = some 0
      ∧ (s.road 0).route.getLast? = some 0 ∧ s.map.isBay 0 = false
      ∧ answer (after (.reform .a 5 [1, 0x81]) s) .a = [0x05]
      ∧ answer (after (.reform .a 5 [1, 0x81, 30, 0, 9]) s) .a = [0x05, 1]
      ∧ answer (after (.reform .a 5 [1, 0x81, 30]) rolling) .a = [0x04]
      ∧ answer (after (.reform .a 5 [1, 0x86, 40, 0, 40]) s) .a = [0x04]
      ∧ answer (after (.reform .a 5 [1, 0x81, 30]) s) .a = [0x04]
      ∧ answer (after (.reform .a 5 [1, 0x81, 60, 0, 60, 0, 60, 0x8B, 60]) s) .a = [0x07, 255, 0, 240, 0] := by
  decide +kernel

theorem witness_DisbandGivesEverythingBack :
    MembersActive standing ∧ QueuesAgree standing ∧ Commands standing .a 1 0 ∧ (standing.convoy 0).state = .standing
      ∧ NobodyWaits standing (standing.everythingOf 0)
      ∧ Commands rolling .a 1 0 ∧ (rolling.convoy 0).state = .rolling
      ∧ answer (after (.disband .a 5 [1]) rolling) .a = [0x04]
      ∧ ((after (.disband .a 5 [1]) standing).sec 0).dyn = .free
      ∧ (after (.disband .a 5 [1]) standing).usage 1 = .retiring 0 := by
  refine ⟨standing_laws.1, standing_laws.2, ?_⟩
  decide +kernel

/-- A claimed convoy takes the first example of R64; an unclaimed UNFORMED one is refused. -/
theorem witness_SetParamsStoresTheValuesInOrder :
    let rest : List Byte := [40, 8, 2, 4, 2, 15, 0xC4, 9, 0x60, 9, 0x30, 0x75]
    paramValues rest = some [40, 8, 2, 4, 2, 15, 2500, 2400, 30000] ∧ Commands standing .a 1 0
      ∧ (standing.convoy 0).owner ≠ none ∧ Commands ready .a 1 0 ∧ (ready.convoy 0).owner = none
      ∧ (ready.convoy 0).state = .unformed ∧ answer (after (.setParams .a 5 (1 :: rest.tail)) standing) .a = [0x05]
      ∧ ((after (.setParams .a 5 (1 :: rest)) standing).convoy 0).thr = ⟨2500, 2600, 20000⟩
      ∧ (answer (after (.setParams .a 5 (1 :: rest)) standing) .a).take 5 = [0x01, 1, 9, 0x80, 1] := by
  decide +kernel

theorem witness_HoldFreezesTheConvoy :
    Commands standing .a 1 0 ∧ (standing.convoy 0).state = .standing ∧ Commands rolling .a 1 0
      ∧ (rolling.convoy 0).state = .rolling ∧ ((after (.hold .a 5 [1]) rolling).convoy 0).resume = some .rolling
      ∧ (after (.hold .a 5 [1]) rolling).speed 1 = ⟨0, 0⟩ := by
  decide +kernel

/-- HELD resuming to ARRIVING with its tail behind its head, its second unit DOWN. -/
def heldBehind : State :=
  ((held .arriving).modRoad 0 fun w => { w with route := [4, 0] }).modTrack 0 fun _ =>
    ⟨1, 0, [⟨1, 1, 0, false, ⟨1000, 2000, 6000⟩, false⟩], true, [.down]⟩

theorem held_laws : MembersActive (held .rolling) ∧ MembersActive heldBehind := by
  unfold MembersActive
  decide +kernel

/-- Resuming to ROLLING the leader goes on at the approach cap 16; resuming to ARRIVING with tail at head it has arrived,
with tail behind head its second unit runs in at the lesser of the approach cap and its section's; resuming with road
ahead it makes its request; and with that road BARRED, at its brake, it is WAITING. -/
theorem witness_UnholdResumesTheConvoy :
    let t := heldBehind
    let w := near ((held .rolling).modRoad 0 fun r => { r with route := [0, 1, 2] })
    let b := (w.modSec 1 fun q => { q with dyn := .barred }).modTrack 0 fun k => { k with brakeSeen := true }
    Commands standing .a 1 0 ∧ (standing.convoy 0).state ≠ .held
      ∧ (∀ r ∈ [Resume.rolling, .arriving], Commands (held r) .a 1 0 ∧ ((held r).convoy 0).state = .held
        ∧ (held r).hls.halted = false ∧ ((held r).convoy 0).resume = some r)
      ∧ (truckAddrs ((held .rolling).members 0)).Nodup ∧ (held .rolling).leader? 0 = some 0
      ∧ ((after (.unhold .a 5 [1]) (held .arriving)).convoy 0).state = .arrived
      ∧ ((after (.unhold .a 5 [1]) (held .rolling)).speed 0).set = 16
      ∧ Commands t .a 1 0 ∧ (t.track 0).tail ≠ (t.track 0).head ∧ (truckAddrs (t.members 0)).Nodup
      ∧ ((after (.unhold .a 5 [1]) t).track 0).units = [.downPending] ∧ ((after (.unhold .a 5 [1]) t).speed 1).set = 16
      ∧ Commands w .a 1 0 ∧ w.wanted 0 = some (1, 1) ∧ ((after (.unhold .a 5 [1]) w).sec 1).dyn = .held 0
      ∧ Commands b .a 1 0 ∧ ((after (.unhold .a 5 [1]) b).convoy 0).state = .waiting := by
  decide +kernel

theorem witness_ClearFaultCutsTheRoute :
    Commands stopped .a 1 0 ∧ (stopped.convoy 0).state = .stopped ∧ QueuesAgree stopped
      ∧ (stopped.convoy 0).fault = some ⟨.lost, 1, 1⟩ ∧ NobodyWaits stopped (stopped.aheadOf 0)
      ∧ (standing.convoy 0).state ≠ .stopped
      ∧ (let s := stopped.modConvoy 0 fun v => { v with owner := some .b, fault := some ⟨.count, 1, 1⟩ }
         Commands s .b 1 0 ∧ s.level .b ≠ 0 ∧ answer (after (.clearFault .b 5 [1]) s) .b = [0x03])
      ∧ ((after (.clearFault .a 5 [1]) stopped).road 0).route = [0, 1] := by
  refine ⟨by decide +kernel, by decide +kernel, queuesAgree_of ?_ ?_ ?_, ?_⟩ <;> decide +kernel

/-! ### Witnesses: routes and road -/

/-- A route that departs from the run, repeats an entry, is no successor, has nothing beyond its run, ends without a brake
detector; and a good one. -/
theorem test_routes_fail_at_their_first_bad_entry :
    club.routeFails [0] [1, 2] = some 0 ∧ club.routeFails [0] [0, 0] = some 1 ∧ club.routeFails [0] [0, 2] = some 1
      ∧ club.routeFails [0, 1] [0, 1] = some 1 ∧ club.routeFails [0, 1, 2] [0, 1, 2] = some 3 ∧ club.routeFails [0] [0, 1, 2, 3] = some 3
      ∧ club.routeFails [0] [0, 1, 2] = none := by
  decide +kernel

/-- A STANDING convoy of 75 cm takes the route to bay 5; the other refusals at once: no owner, one entry, a ROLLING
convoy, a list that fails, a last section of 70 cm. -/
theorem witness_SetRouteChecksTheRoute :
    let short := standing.setMap { club with sections := club.sections.put 5 { club.sections.nth 5 with length := 70 } }
    Serves standing .a ∧ Serves standing .b ∧ standing.named .a 1 = some 0 ∧ standing.owns .a 0 = true
      ∧ standing.owns .b 0 = false ∧ routeArg [0] = none ∧ routeArg [0, 1, 5] = some [0, 1, 5]
      ∧ (standing.convoy 0).state = .standing ∧ standing.map.routeFails (standing.occupiedRun 0) [0, 1, 5] = none
      ∧ convoyLength (standing.members 0) (standing.convoy 0).params.standGap = 75
      ∧ Serves short .a ∧ (short.sectionRec 5).length = 70
      ∧ answer (after (.setRoute .b 5 [1, 0, 1, 5]) standing) .b = [0x02]
      ∧ answer (after (.setRoute .a 5 [1, 0]) standing) .a = [0x05]
      ∧ answer (after (.setRoute .a 5 [1, 0, 1, 5]) rolling) .a = [0x04]
      ∧ answer (after (.setRoute .a 5 [1, 0, 1]) standing) .a = [0x06, 1]
      ∧ answer (after (.setRoute .a 5 [1, 0, 1, 5]) short) .a = [0x07, 75, 0, 70, 0]
      ∧ answer (after (.setRoute .a 5 [1, 0, 1, 5]) standing) .a = [0x00, 1, 9] := by
  decide +kernel

/-- Routes 0, 1, 2 and 0, 1, 5 part at index 2. A convoy WAITING for section 1 keeps its entry; one in section 1 that waits
for section 2 loses it and is granted the bay; one that holds section 2 gives it back, its watch on the fork ended; an
ARRIVED one stands. -/
theorem witness_SetRouteReplacesTheRoute :
    let base := withConvoy ready 0 (some .a) .waiting pair [0, 1, 2] 0 0 [0]
    let k := (base.modSec 1 fun q => { q with dyn := .clearing 500 }).join 0 1 1 (.sec 1)
    let w := ((withConvoy ready 0 (some .a) .waiting pair [0, 1, 2] 1 1 [1]).modSec 2 fun q =>
      { q with dyn := .barred }).join 0 2 2 (.sec 2)
    let g := (withConvoy ready 0 (some .a) .arrived pair [0, 1, 2] 0 0 [0, 1, 2]).modRoad 0 fun r =>
      { r with watch := .effective 1, req := .refused }
    (∀ s ∈ [k, g], Serves s .a ∧ s.named .a 1 = some 0 ∧ s.owns .a 0 = true
        ∧ s.map.routeFails (s.occupiedRun 0) [0, 1, 5] = none ∧ (s.track 0).head = 0 ∧ (s.track 0).tail = 0
        ∧ convoyLength (s.members 0) (s.convoy 0).params.standGap ≤ (s.sectionRec 5).length)
      ∧ routeArg [0, 1, 5] = some [0, 1, 5] ∧ (k.convoy 0).state = .waiting ∧ (g.convoy 0).state = .arrived
      ∧ (k.installRoute 0 [0, 1, 5] [] 2).keptEntry 0 = some (.sec 1, 1, 1)
      ∧ (after (.setRoute .a 5 [1, 0, 1, 5]) k).queue (.sec 1) = [⟨0, 1, 1, 0⟩]
      ∧ Serves w .a ∧ w.owns .a 0 = true ∧ w.map.routeFails (w.occupiedRun 0) [1, 5] = none
      ∧ (w.installRoute 0 [1, 5] [] 1).keptEntry 0 = none ∧ (w.convoy 0).state = .waiting
      ∧ (after (.setRoute .a 5 [1, 1, 5]) w).queue (.sec 2) = [] ∧ (after (.setRoute .a 5 [1, 1, 5]) w).secHolder 5 = some 0
      ∧ NobodyWaits g [.sec 2] ∧ ((after (.setRoute .a 5 [1, 0, 1, 5]) g).sec 2).dyn = .free
      ∧ (after (.setRoute .a 5 [1, 0, 1, 5]) g).road 0 = ⟨[0, 1, 5], .idle, .awaiting 1⟩
      ∧ ((after (.setRoute .a 5 [1, 0, 1, 5]) g).convoy 0).state = .standing := by
  decide +kernel

/-- At START section 1 is free and granted; the fork awaits its frame, so the leader goes at the approach cap 16. -/
theorem witness_StartSetsTheConvoyRolling :
    Commands standing .a 1 0 ∧ (standing.convoy 0).state = .standing
      ∧ (standing.track 0).head + 1 < (standing.road 0).route.length ∧ standing.hls.halted = false
      ∧ standing.leader? 0 = some 0 ∧ (truckAddrs (standing.members 0)).Nodup
      ∧ (halted standing).hls.halted = true ∧ Commands (halted standing) .a 1 0
      ∧ ((after (.start .a 5 [1]) (near standing)).sec 1).dyn = .held 0
      ∧ ((after (.start .a 5 [1]) (near standing)).road 0).watch = .awaiting 1
      ∧ ((after (.start .a 5 [1]) (near standing)).speed 0).set = 16 := by
  decide +kernel

theorem witness_RequestsForRoadAreChosenCheckedAndQueued :
    State.wanted (withConvoy ready 0 (some .a) .rolling pair [0, 1, 2] 0 0 [0]) 0 = some (1, 1)
      ∧ rolling.wanted 0 = some (2, 2) ∧ standing.wanted 0 = none
      ∧ insertEntry ⟨3, 1, 1, 0⟩ [⟨8, 1, 1, 2⟩] = [⟨3, 1, 1, 0⟩, ⟨8, 1, 1, 2⟩] := by
  decide +kernel

/-- Convoy 1, ROLLING and REFUSED: section 1 is free and granted at once, or held by a convoy that waits for section 0,
or BARRED; or nothing is wanted any more. -/
def refused (s : State) : State := s.modRoad 0 fun w => { w with req := .refused }

theorem witness_RetryRenewsTheRequest :
    let u := near (withConvoy ready 0 (some .a) .rolling pair [0, 1, 2] 0 0 [0])
    let b := withConvoy u 1 (some .b) .rolling [.truck 5 40] [1, 2, 0] 0 0 [1, 2]
    let d := b.modRoad 1 fun w => { w with req := .queued (.sec 0) }
    let g := u.join 0 1 1 (.sec 1)
    Commands (refused u) .a 1 0 ∧ ((refused u).road 0).req = .refused ∧ u.wanted 0 = some (1, 1)
      ∧ u.chainCloses 0 chainLimit (.sec 1) = false
      ∧ g.hls.halted = false ∧ g.queue (.sec 1) = [⟨0, 1, 1, 0⟩] ∧ g.eligible (.sec 1) ⟨0, 1, 1, 0⟩ = true
      ∧ Commands (refused d) .a 1 0 ∧ d.chainCloses 0 chainLimit (.sec 1) = true
      ∧ ((after (.retry .a 5 [1]) (refused d)).port .a).notices.map Notice.kind = [.deadlock]
      ∧ ((after (.retry .a 5 [1]) (refused u)).sec 1).dyn = .held 0
      ∧ (standing.road 0).req ≠ .refused ∧ standing.wanted 0 = none := by
  decide +kernel

/-- An entry of convoy 1 in the queue of a resource. -/
def waiting (s : State) (k : Nat) (x : Sec) (r : Resource) : State := s.join 0 k x r

/-- The second entry is the first to which the section is grantable: the first one's convoy would not end in the bay. -/
theorem witness_GrantScansGrantTheFirstEligibleEntry :
    let s := withConvoy ready 0 (some .a) .waiting pair [0, 1, 5] 1 1 [1]
    let s := (s.modSec 5 fun _ => ⟨.parked, 2, [⟨1, 5, 0, 0⟩]⟩).join 0 2 5 (.sec 5)
    let e : Entry := ⟨0, 5, 2, 0⟩
    s.firstEligible (.sec 5) e ∧ (s.scan (.sec 5)).secHolder 5 = some 0
      ∧ (truckAddrs (s.members 0)).Nodup ∧ (s.grantTo (.sec 5) e).nextEffective 0 = true ∧ s.formed 0 = true
      ∧ ((s.grantTo (.sec 5) e).convoy 0).state = .rolling
      ∧ (∀ f : Entry, ¬ (halted s).firstEligible (.sec 5) f)
      ∧ ready.eligible (.grp 0) ⟨0, 3, 1, 0⟩ = true ∧ ready.eligible (.grp 0) ⟨0, 4, 1, 0⟩ = false := by
  refine ⟨⟨by decide +kernel, [⟨1, 5, 0, 0⟩], [], by decide +kernel, by decide +kernel, by decide +kernel⟩,
    by decide +kernel, by decide +kernel, by decide +kernel, by decide +kernel, by decide +kernel,
    fun f h => absurd h.1 (by decide +kernel), by decide +kernel, by decide +kernel⟩

/-- Sections 4, 5 and 2 BARRED, BLOCKED and CLEARING, nobody waiting for them, or convoy 1. -/
theorem witness_RoadThatBecomesAvailableIsScanned :
    let m : LayoutMap := { club with sections := club.sections.put 4 { club.sections.nth 4 with barred := true } }
    let s := (ready.setMap m).modSec 4 fun q => { q with dyn := .barred }
    let b := ready.modSec 2 fun q => { q with dyn := .blocked }
    let c := ready.modSec 2 fun q => { q with dyn := .clearing 750 }
    let w := (withConvoy ready 0 (some .a) .rolling pair [0, 1, 2] 1 1 [1]).join 0 2 2 (.sec 2)
    let v := w.modSec 2 fun q => { q with dyn := .clearing 750 }
    Serves s .a ∧ s.level .a = 0 ∧ onlySection [4] = some 4 ∧ (s.sec 4).dyn = .barred ∧ s.map.singleCheck 4 = none
      ∧ s.queue (.sec 4) = [] ∧ (ready.sec 8).dyn = .barred ∧ ready.map.singleCheck 8 = some (5, none)
      ∧ Serves b .a ∧ b.level .a = 0 ∧ (b.sec 2).dyn = .blocked ∧ b.queue (.sec 2) = []
      ∧ c.raised = [] ∧ c.running = true ∧ (c.sec 2).dyn = .clearing 750
      ∧ v.raised = [] ∧ v.running = true ∧ (v.sec 2).dyn = .clearing 750 ∧ v.queue (.sec 2) = [⟨0, 2, 2, 0⟩]
      ∧ ((after (.unbar .a 5 [4]) s).sec 4).dyn = .free ∧ ((after (.clearSection .a 5 [2]) b).sec 2).dyn = .free
      ∧ ((after (.clearanceTimerExpiry 2) v).sec 2).dyn = .held 0 ∧ (after (.clearanceTimerExpiry 2) v).now = 750 := by
  decide +kernel

theorem witness_BarAndSetStockSetTheSection :
    let e := (ready.modSec 5 fun _ => ⟨.parked, 2, []⟩)
    Serves ready .a ∧ ready.level .a = 0 ∧ onlySection [48] = none ∧ onlySection [0] = some 0
      ∧ (ready.sec 0).dyn = .free ∧ (∀ c, ready.formed c = false) ∧ (standing.sec 0).dyn = .held 0
      ∧ stockArg [5, 9] = some (5, 9) ∧ ready.map.isBay 5 = true ∧ stockArg [0, 1] = some (0, 1)
      ∧ ready.map.isBay 0 = false ∧ stockArg [5, 0] = some (5, 0) ∧ (e.sec 5).dyn = .parked ∧ Serves e .a
      ∧ e.queue (e.map.resourceOf 5) = [] ∧ ((after (.setStock .a 5 [5, 9]) ready).sec 5) = ⟨.parked, 8, []⟩
      ∧ ((after (.setStock .a 5 [5, 0]) e).sec 5) = ⟨.free, 0, []⟩
      ∧ ((after (.bar .a 5 [0]) ready).sec 0).dyn = .barred
      ∧ ((after (.bar .a 5 [0]) ready).map.sections.nth 0).barred = true := by
  decide +kernel

/-! ### Witnesses: requests to the whole part -/

/-- Port B is no owner; port A's queue of 7 takes an eighth entry, one of 8 none; a truck not ACTIVE, and a coupler
release at speed, are BAD_STATE. -/
theorem witness_AuxRequestsJoinThePortsQueue :
    let e : AuxEntry := ⟨0, .on, .leave, true, false⟩
    let s (n : Nat) : State := rolling.modRds fun r => { r with auxQueues := r.auxQueues.put .a (List.replicate n e) }
    auxArg [33, 1, 0, 1, 0] = none ∧ auxArg [1, 1, 0, 1, 0] = some e ∧ Serves rolling .a ∧ rolling.usage 0 = .active 0
      ∧ (rolling.convoy 0).owner = some .a ∧ rolling.level .a = 0 ∧ rolling.level .b ≠ 0 ∧ Serves rolling .b
      ∧ answer (after (.aux .b 5 [1, 1, 0, 1, 0]) rolling) .b = [0x02]
      ∧ answer (after (.aux .a 5 [1, 1, 0, 1, 0]) (s 7)) .a = [0x00, 8]
      ∧ answer (after (.aux .a 5 [1, 1, 0, 1, 0]) (s 8)) .a = [0x08]
      ∧ answer (after (.aux .a 5 [1, 0, 0, 0, 1]) rolling) .a = [0x04]
      ∧ answer (after (.aux .a 5 [32, 1, 0, 1, 0]) rolling) .a = [0x04] := by
  decide +kernel

/-- With the supply LOW, a port at notify level 0 that takes level 1 is told SUPPLY_LOW again (R157). -/
theorem witness_SetNotifyTakesTheSettingAndReissues :
    let s := (ready.modHls fun h => { h with supplyLow := true }).modPort .b fun q => { q with notifyLevel := 0 }
    Serves s .b ∧ answer (after (.setNotify .b 5 [2, 0]) s) .b = [0x05]
      ∧ answer (after (.setNotify .b 5 [1, 3]) s) .b = [0x00, 1, 3]
      ∧ ((after (.setNotify .b 5 [1, 1]) s).port .b).notices.map Notice.kind = [.supplyLow]
      ∧ ((after (.setNotify .b 5 [0, 3]) s).port .b).notices = [] := by
  decide +kernel

/-- Table 10.2: REQUEST joins the causes of a part that RADIO holds HALTED, with a HALTED notice of cause 1. -/
theorem witness_AllStopHaltsThePart :
    let r := ready.modHls fun _ => ⟨true, false, false, true, false⟩
    Serves rolling .b ∧ rolling.hls.request = false ∧ rolling.hls.halted = false ∧ rolling.isActive 0 = true
      ∧ (after (.allStop .b 5 []) rolling).hls = ⟨true, true, false, false, false⟩
      ∧ (after (.allStop .b 5 []) rolling).speed 0 = ⟨0, 0⟩
      ∧ Serves r .c ∧ r.hls.halted = true ∧ (after (.allStop .c 5 []) r).hls = ⟨true, true, false, true, false⟩
      ∧ ((after (.allStop .c 5 []) r).port .c).notices = [⟨.halted, none, none, none, none, 1⟩]
      ∧ Serves (halted ready) .a ∧ (halted ready).hls.request = true := by
  decide +kernel

theorem witness_ResumeAllRestartsTheLayout :
    let s := halted (rolling.modConvoy 0 fun v => { v with state := .waiting })
    Serves s .a ∧ s.level .a = 0 ∧ s.hls.halted = true ∧ s.hls.chord = false ∧ s.hls.radio = false
      ∧ NobodyWaits s allResources ∧ ready.hls.halted = false ∧ Serves ready .a
      ∧ ((after (.resumeAll .a 5 []) s).convoy 0).state = .rolling ∧ (after (.resumeAll .a 5 []) s).hls.halted = false
      ∧ answer (after (.resumeAll .a 5 []) ready) .a = 0x04 :: ready.haltBytes := by
  decide +kernel

theorem witness_LayoutResetClearsTheLayout :
    Serves rolling .a ∧ rolling.level .a = 0 ∧ ((after (.layoutReset .a 5 []) rolling).sec 0).dyn = .free
      ∧ (after (.layoutReset .a 5 []) rolling).usage 0 = .retiring 0
      ∧ (after (.layoutReset .a 5 []) rolling).rds.broadcasts = 3 := by
  decide +kernel

/-! ### Witnesses: inputs and passages -/

/-- Input 6 as in Table 3.2, whose spike of 3 ms is lost; and input 0, its filter off, accepted at once. -/
theorem witness_InputsAreConditioned :
    let s := ready.modInput 6 fun _ => ⟨true, .rising, some 3⟩
    ready.raised = [] ∧ State.reset.running = false ∧ State.reset.raised = [] ∧ ready.running = true
      ∧ ChordAgrees ready ∧ ready.checkLeft 6 = none ∧ ChordAgrees s ∧ s.raised = [] ∧ s.checkLeft 6 = some 7
      ∧ (after (.changeOfLogicalLevel 6 true) ready).input 6 = ⟨true, .rising, some 0⟩
      ∧ (after (.changeOfLogicalLevel 6 false) s).input 6 = ⟨false, .inactive, none⟩
      ∧ (after (.changeOfLogicalLevel 1 true) ready).input 1 = ⟨true, .active, none⟩
      ∧ (after (.changeOfLogicalLevel 1 true) ready).dfe.seen = ⟨[1], [1], [1], []⟩ := by
  unfold ChordAgrees
  decide +kernel

/-- The clauses of attribution: a member, the leader of a holder, an overrun by the one convoy due, a stray. -/
theorem witness_PassagesAreAttributed :
    let o := withConvoy ready 0 (some .a) .waiting pair [0, 1, 2] 0 0 [0]
    ready.running = true ∧ (ready.input 0).cond = .inactive ∧ ready.map.filterCode 0 = 0 ∧ (ready.input 0).high = false
      ∧ (ready.map.detectors.nth 0).activeHigh = true
      ∧ State.checkLeft (ready.modInput 6 fun _ => ⟨true, .rising, some 3⟩) 6 = some 7
      ∧ (60 : Inp) ∈ chordInputs ready.map.settings.chord ∧ (0 : Inp) ∉ chordInputs ready.map.settings.chord
      ∧ crossing.secHolder 1 = some 0 ∧ (crossing.expecting? 0 1).isSome = true
      ∧ rolling.secHolder 1 = some 0 ∧ rolling.expecting? 0 1 = none ∧ rolling.nextSec? 0 = some 1
      ∧ o.secHolder 1 = none ∧ o.attribution 1 = .overrun 0 ∧ ready.attribution 1 = .stray
      ∧ crossing.attribution 1 = .member 0 ⟨1, 1, 1260, true, ⟨1000, 2000, 6000⟩, false⟩
      ∧ rolling.attribution 1 = .leader 0 := by
  decide +kernel

/-- A leader of two vehicles and a single truck enter section 1, which has no brake detector; section 2 is free, so the
convoy is granted it and goes on. -/
theorem witness_LeaderCrossingsAdvanceTheHead :
    let one := (withConvoy ready 0 (some .a) .rolling [.truck 0 30] [0, 1, 2] 0 0 [0, 1])
    (rolling.convoy 0).state = .rolling ∧ (truckAddrs (rolling.members 0)).Nodup ∧ rolling.nextSec? 0 = some 1
      ∧ (∀ r ∈ (rolling.track 0).records, r.j ≤ (rolling.track 0).head) ∧ 1 < rolling.memberCount 0
      ∧ (one.convoy 0).state = .rolling ∧ one.nextSec? 0 = some 1 ∧ one.memberCount 0 = 1
      ∧ (one.track 0).records = [] ∧ (one.track 0).tail = (one.track 0).head
      ∧ ((rolling.leaderCrossing 0 1).track 0).head = 1 ∧ ((rolling.leaderCrossing 0 1).convoy 0).state = .rolling
      ∧ ((rolling.leaderCrossing 0 1).speed 0).set = 40 ∧ (one.leaderCrossing 0 1).track 0 = ⟨1, 1, [], false, []⟩ := by
  decide +kernel

/-- The last member's crossing: the gap of 1260 ms gives speed 32 (case A), the tail leaves section 0 for 750 ms. -/
theorem witness_MemberCrossingsCountAndMoveTheTail :
    let r : Crossing := ⟨1, 1, 1260, true, ⟨1000, 2000, 6000⟩, false⟩
    let s := crossing.modConvoy 0 fun v => { v with params := { v.params with look := 1 } }
    (truckAddrs (s.members 0)).Nodup ∧ (s.track 0).record? 1 = some r ∧ r.n < s.memberCount 0
      ∧ r.n + 1 = s.memberCount 0 ∧ r.j = (s.track 0).tail + 1 ∧ (s.members 0)[1]? = some (.truck 1 30)
      ∧ s.unitState? 0 (unitIndex (s.members 0) 1) = some .run ∧ s.routeAt 0 0 = some 0
      ∧ (s.convoy 0).state ≠ .arriving ∧ (s.memberCrossing 0 r).speed 1 = ⟨32, 20⟩ ∧ ((s.memberCrossing 0 r).sec 0).dyn = .clearing 750
      ∧ ((s.memberCrossing 0 r).track 0).tail = 1 := by
  decide +kernel

/-- An ARRIVING convoy whose second truck enters the last section has ARRIVED; the unit is DOWN and stands. -/
theorem test_member_crossing_arrives :
    let r : Crossing := ⟨1, 1, 1260, true, ⟨1000, 2000, 6000⟩, false⟩
    let s := (crossing.modConvoy 0 fun v => { v with state := .arriving }).setUnit 0 1 .downPending
    (s.track 0).record? 1 = some r ∧ ((s.memberCrossing 0 r).convoy 0).state = .arrived
      ∧ ((s.memberCrossing 0 r).track 0).units = [.down] ∧ (s.memberCrossing 0 r).speed 1 = ⟨0, 0⟩ := by
  decide +kernel

/-- Table 6.5: convoy 1 overruns section 2, which convoy 2 holds; both stop. -/
theorem witness_FaultsStopConvoysAndStraysBlockRoad :
    let s := withSecond (withConvoy ready 0 (some .a) .waiting pair [0, 1, 2] 1 1 [1])
    (stopped.convoy 0).state = .stopped ∧ MembersActive s ∧ QueuesAgree s ∧ (s.convoy 0).state ≠ .stopped
      ∧ s.attribution 2 = .overrun 0 ∧ ((s.overrun 0 2).convoy 0).fault = some ⟨.overrun, 2, 0⟩
      ∧ ((s.overrun 0 2).convoy 1).fault = some ⟨.intruded, 2, 0⟩
      ∧ ((ready.stray 2 3).sec 2).dyn = .blocked ∧ (ready.stray 8 13).recipients .levelZero = [.a] := by
  refine ⟨by decide +kernel, ?_, queuesAgree_of ?_ ?_ ?_, ?_⟩ <;> (try unfold MembersActive) <;> decide +kernel

/-- At the brake of section 0: WAITING with section 1 not held, on with it effective, ARRIVED at the last entry, ARRIVING
with the tail in section 4; HELD, resume-to becomes ARRIVING; and section 2 has no leader. -/
theorem witness_BrakePassagesStopTheLeader :
    let w := withConvoy ready 0 (some .a) .rolling pair [0, 1, 2] 0 0 [0]
    let l := withConvoy ready 0 (some .a) .rolling pair [0] 0 0 [0]
    let a := (withConvoy ready 0 (some .a) .rolling pair [4, 0] 1 0 [4, 0]).modTrack 0 fun k =>
      { k with records := [⟨1, 1, 0, true, ⟨1000, 2000, 6000⟩, false⟩] }
    (∀ s ∈ [w, l, a, rolling, held .rolling], s.headSec? 0 = some 0 ∧ (s.track 0).brakeSeen = false
        ∧ (∀ d, d ≠ 0 → s.formed d = false) ∧ (truckAddrs (s.members 0)).Nodup
        ∧ ∀ r ∈ (s.track 0).records, r.j ≤ (s.track 0).head)
      ∧ (∀ c, rolling.isBrakeOf 2 c = false) ∧ rolling.nextEffective 0 = true ∧ w.nextEffective 0 = false
      ∧ ((w.brakePassage 0).convoy 0).state = .waiting ∧ ((w.brakePassage 0).track 0).units = [.down]
      ∧ (w.brakePassage 0).raised.map (fun r => r.notice.kind) = [.waiting]
      ∧ ((rolling.brakePassage 0).convoy 0).state = .rolling ∧ ((l.brakePassage 0).convoy 0).state = .arrived
      ∧ ((a.brakePassage 0).convoy 0).state = .arriving ∧ ((a.brakePassage 0).track 0).units = [.downPending]
      ∧ (((held .rolling).brakePassage 0).convoy 0).resume = some .arriving := by
  decide +kernel

/-- Unit 1 of a convoy whose leader is in section 1: DOWN-PENDING it stands down at its own passage; START-PENDING it
restarts at the leader's, or behind a leader that counts as DOWN; in RUN behind a stopped leader it waits. -/
theorem witness_FollowerUnitsStepAndRestart :
    let at1 (st : ConvoyState) (r : RunState) : State :=
      (crossing.modConvoy 0 fun v => { v with state := st }).setUnit 0 1 r
    (truckAddrs (crossing.members 0)).Nodup ∧ crossing.unitsFor 0 = [⟨0, 0, 0⟩, ⟨1, 1, 1⟩]
      ∧ ((at1 .waiting .downPending).unitSteps 0 1 1 1).unitState? 0 1 = some .down
      ∧ ((at1 .waiting .downPending).unitSteps 0 1 1 1).speed 1 = ⟨0, 0⟩
      ∧ (at1 .waiting .downPending).unitSteps 0 0 1 1 = at1 .waiting .downPending
      ∧ ((at1 .rolling .startPending).unitSteps 0 0 1 1).unitState? 0 1 = some .run
      ∧ ((at1 .rolling .startPending).unitSteps 0 0 1 1).speed 1 = ⟨30, 20⟩
      ∧ ((at1 .waiting .startPending).unitSteps 0 0 1 1).unitState? 0 1 = some .downPending
      ∧ ((at1 .waiting .startPending).unitSteps 0 0 1 1).speed 1 = ⟨16, 20⟩
      ∧ (((at1 .rolling .run).modSpeed 0 fun _ => ⟨0, 0⟩).unitSteps 0 1 1 1).unitState? 0 1 = some .startPending
      ∧ (at1 .waiting .down).unitSteps 0 1 1 1 = at1 .waiting .down
      ∧ ((at1 .waiting .down).restart 0).unitState? 0 1 = some .downPending
      ∧ ((at1 .rolling .down).restart 0).unitState? 0 1 = some .startPending := by
  decide +kernel

/-! ### Witnesses: timers -/

/-- The fork of section 1 settles: the leader's target is the zone's speed cap and the convoy's Vmax, 40. -/
theorem witness_SettledForksBecomeEffective :
    let s := rolling.modRoad 0 fun w => { w with watch := .settling 1 200 }
    let s := s.modConvoy 0 fun v => { v with state := .waiting }
    s.raised = [] ∧ s.running = true ∧ (s.road 0).watch = .settling 1 200 ∧ (s.track 0).head + 1 = 1
      ∧ s.leader? 0 = some 0 ∧ s.formed 0 = true ∧ (truckAddrs (s.members 0)).Nodup
      ∧ rolling.settleLeft 0 = none ∧ ((after (.settleTimerExpiry 0) s).convoy 0).state = .rolling
      ∧ ((after (.settleTimerExpiry 0) s).speed 0).set = 40
      ∧ (s.modRoad 0 fun w => { w with watch := .settling 2 200 }).running = true := by
  decide +kernel

theorem crossing_laws : MembersActive crossing ∧ QueuesAgree crossing :=
  ⟨by unfold MembersActive; decide +kernel, queuesAgree_of (by decide +kernel) (by decide +kernel) (by decide +kernel)⟩

/-- At Tlag, 740 ms on, the follower in RUN gets 2 more; at Tlost, 4740 ms on, the convoy is LOST. -/
theorem witness_GapTimersBoostAndLose :
    crossing.raised = [] ∧ MembersActive crossing ∧ QueuesAgree crossing ∧ crossing.lagLeft 0 1 = some 740
      ∧ crossing.lostLeft 0 1 = some 4740 ∧ crossing.lagLeft 0 2 = none ∧ crossing.lostLeft 0 2 = none
      ∧ (crossing.track 0).record? 1 = some ⟨1, 1, 1260, true, ⟨1000, 2000, 6000⟩, false⟩
      ∧ crossing.unitTruck? 0 1 = some 1 ∧ crossing.unitSec? 0 1 = some 0 ∧ crossing.unitState? 0 1 = some .run
      ∧ crossing.hls.halted = false ∧ crossing.routeAt 0 1 = some 1 ∧ (crossing.convoy 0).state ≠ .stopped
      ∧ (after (.gapTimerTlag 0 1) crossing).speed 1 = ⟨22, 20⟩
      ∧ ((after (.gapTimerTlost 0 1) crossing).convoy 0).fault = some ⟨.lost, 1, 1⟩ := by
  refine ⟨by decide +kernel, crossing_laws.1, crossing_laws.2, ?_⟩
  decide +kernel

/-- Table 7.2, case B: C falls from 32 by Adec 4; case A: it rises by Aacc 2. -/
theorem witness_RampTicksMoveCommandedSpeeds :
    let s := (rolling.modSpeed 0 fun _ => ⟨15, 32⟩).modSpeed 1 fun _ => ⟨32, 28⟩
    s.raised = [] ∧ s.running = true ∧ State.reset.running = false ∧ (after .rampTick s).speed 0 = ⟨15, 28⟩
      ∧ (after .rampTick s).speed 1 = ⟨32, 30⟩ := by
  decide +kernel

theorem witness_FollowersAreSetByTheirGap :
    crossing.routeAt 0 1 = some 1 ∧ crossing.vcap 0 1 = 40
      ∧ ((crossing.followerComputation 0 1 1 1 450 1000).speed 1) = ⟨15, 20⟩ := by
  decide +kernel

/-! ### Witnesses: the radio -/

theorem witness_SlotsWithoutAReadyModemCountToTheLoss :
    let s := rolling.modRds fun r => { r with notReady := 19 }
    rolling.raised = [] ∧ rolling.running = true ∧ rolling.rds.notReady ≠ 19 ∧ State.reset.running = false
      ∧ s.raised = [] ∧ s.running = true ∧ s.rds.notReady = 19 ∧ s.hls.radio = false ∧ s.hls.halted = false
      ∧ (after .radioLost s).hls = ⟨true, false, false, true, false⟩ ∧ (after .radioLost s).rds.frame = none
      ∧ (after (.slotStart false) rolling).rds.notReady = 1 := by
  decide +kernel

/-- Table 8.3, slots 0 to 100: the classes in turn. -/
theorem witness_SlotsChooseByTheClassOrder :
    let base := withConvoy ready 1 (some .b) .standing [.truck 2 30, .truck 4 30] [0, 1, 2] 0 0 [0]
    let ramp := base.modRadio 4 fun r => { r with lastSent := 18 }
    let due := ramp.modRadio 2 fun r => { r with deadline := some 0 }
    let branch := due.modRadio 4 fun r => { r with branchMark := some 1 }
    let stop := (branch.modRadio 2 fun r => { r with stopMark := some 7 }).modRadio 4 fun r => { r with stopMark := some 7 }
    let aux := base.modRds fun r => { r with auxQueues := ⟨[], [⟨4, .leave, .leave, true, false⟩], [], []⟩ }
    base.chooseFrame = .early 2 ∧ aux.chooseFrame = .aux .b ∧ ramp.chooseFrame = .ramp 4 ∧ due.chooseFrame = .due 2
      ∧ branch.chooseFrame = .branch 4 ∧ stop.chooseFrame = .stop 2
      ∧ State.chooseFrame (stop.modRds fun r => { r with broadcasts := 1 }) = .broadcast
      ∧ ready.chooseFrame = .idle ∧ portsAfter .d = [.a] ++ .b :: [.c, .d] ∧ aux.rds.rest = 0 := by
  decide +kernel

/-- Table 8.3, slot 70: the frame to truck 8 is 50 ms late; a RETIRING truck becomes FREE. -/
theorem witness_SlotsSendTheChosenFrame :
    let s := (withConvoy ready 8 (some .c) .standing [.truck 7 30, .truck 10 30] [0, 1, 2] 0 0 [0]).modRadio 7 fun r =>
      { r with deadline := some 20, stopMark := some 3 }
    let s := { s with now := 60 }
    let r := (ready.setUsage 10 (.retiring 6)).modRadio 10 fun q => { q with stopMark := some 3 }
    s.raised = [] ∧ s.running = true ∧ (s.advance s.rds.slotInMs).chooseFrame = .stop 7 ∧ s.usage 7 = .active 8
      ∧ ((after (.slotStart true) s).port .c).notices = [⟨.refreshLate, some 8, none, some 7, none, 50⟩]
      ∧ ((after (.slotStart true) s).radio 7).deadline = some 470
      ∧ r.usage 10 = .retiring 6 ∧ (r.advance r.rds.slotInMs).chooseFrame = .stop 10
      ∧ (after (.slotStart true) r).usage 10 = .free
      ∧ (after (.slotStart true) r).rds.frame = some (frameBytes 11 false 0 0) := by
  decide +kernel

/-! ### Witnesses: the supply and the transmitters -/

/-- Threshold code 4: V_T is 5.0 V; LOW below it, NORMAL again from 5.15 V. -/
theorem witness_TheSupplyStateFollowsTheSupply :
    let l := rolling.modHls fun h => { h with supplyLow := true }
    rolling.raised = [] ∧ MembersActive rolling ∧ rolling.running = true ∧ rolling.hls.supplyLow = false
      ∧ (after (.supplyLow 4999) rolling).hls.supplyLow = true ∧ (after (.supplyLow 5000) rolling).hls.supplyLow = false
      ∧ (after (.supplyLow 4999) rolling).speed 1 = ⟨24, 30⟩
      ∧ l.raised = [] ∧ MembersActive l ∧ l.running = true ∧ l.hls.supplyLow = true
      ∧ (after (.supplyOk 5150) l).hls.supplyLow = false ∧ (after (.supplyOk 5149) l).hls.supplyLow = true
      ∧ State.reset.running = false ∧ State.reset.raised = [] := by
  unfold MembersActive
  decide +kernel

/-- A severity-0 notice starts a batch at once; a reply goes first; a batch of nine notices takes two messages; the
reply that waits behind a message is begun where the message ends. -/
theorem witness_TransmittersSendRepliesAndBatches :
    let n : Notice := ⟨.halted, none, none, none, none, 1⟩
    let q : PortState := ready.port .b
    let nine := { q with notices := List.replicate 9 n, flush := .running 40 }
    let reply : Message := ⟨0xB8, 5, [0]⟩
    let put (r : PortState) : State := ready.modPort .b fun _ => r
    let run := put { q with notices := [{ n with kind := .resumed }], flush := .running 40 }
    let busy := put { nine with replies := [reply], tx := .sending [1] 40 false [] }
    let m := put { q with tx := .sending [1] 40 true [[n]], batchSeq := 1 }
    nine.look.tx = .sending (batchMessage 0 (List.replicate 8 n) true).bytes 2480 true [[n]]
      ∧ PortState.look { nine with replies := [reply] }
        = { nine with tx := .sending [0x3C, 1, 0xB8, 5, 0, 0x42] 240 false [] }
      ∧ run.raised = [] ∧ (run.port .b).flush = .running 40 ∧ ready.flushLeft .a = none
      ∧ ((after (.flushTimerExpiry .b) run).port .b).batchSeq = 1 ∧ (after (.flushTimerExpiry .b) run).now = 40
      ∧ ((after (.batchStart .b) (put nine)).port .b).batchSeq = 1 ∧ (nine.attached ∧ nine.tx = .idle)
      ∧ ((after (.replySendStart .b) busy).port .b).tx = .sending [0x3C, 1, 0xB8, 5, 0, 0x42] 240 false []
      ∧ after (.batchStart .b) busy = busy ∧ ((after (.messageEnd .b) busy).port .b).replies = []
      ∧ (m.port .b).tx = .sending [1] 40 true ([n] :: [])
      ∧ ((after (.messageEnd .b) m).port .b).tx
        = .sending [0x3C, 8, 0xFF, 1, 1, 1, 0, 0xFF, 0, 0xFF, 1, 0, 0xF7] 520 true [] := by
  decide +kernel

/-- Five requests in a row: the first reply is on the line when the fifth comes, so none is lost (R149, R154). -/
theorem test_five_requests_in_a_row :
    let s := ready.modPort .a fun q => { q with replies := List.replicate 3 ⟨0x81, 0, [0]⟩ }
    (PortState.placesTaken (s.looked.port .a) = 2) ∧ answer s.looked .a = [0]
      ∧ ((after (.allStop .a 5 []) s.looked).port .a).placesTaken = 3 := by
  decide +kernel

/-! ### Witnesses: encoding and invariants -/

/-- Message bytes written out from Table 9.1: ALL_STOP with tag 5; a body byte 0x3C is an ordinary byte. -/
theorem witness_RequestMessagesAreReadBack :
    Instr.asMessage (.allStop .c 5 []) = some (.c, ⟨0x38, 5, []⟩) ∧ Instr.wellFormed (.allStop .c 5 []) = true
      ∧ Receiver.onBytes .hunt [0, 0x3C, 0, 0x38, 5, 0xC3] = (.hunt, [⟨0x38, 5, []⟩])
      ∧ Receiver.onBytes .hunt [0x3C, 1, 0x24, 0x3C, 0x3C, 0x63] = (.hunt, [⟨0x24, 0x3C, [0x3C]⟩])
      ∧ requestOf .c ⟨0x24, 0x3C, [0x3C]⟩ = .unbar .c 0x3C [0x3C] := by
  decide

/-- The queue of one SLOT_START on a running layout, halted or not. -/
def stepping (s : State) : State := { s with pending := [.slotStart true] }

/-- The three laws and the room hold of a state from which a step is taken. -/
theorem witness_EveryStepKeepsRangesRoomAndChord :
    step (stepping standing) = .next (after (.slotStart true) standing) ∧ Quiet (stepping standing)
      ∧ MapInRange (stepping standing) ∧ WithinRoom (stepping standing) ∧ NothingWaitsIdle (stepping standing)
      ∧ ChordAgrees (stepping standing) := by
  refine ⟨rfl, rfl, ⟨by decide +kernel, fun p => by cases p <;> decide, by decide, by decide, by decide⟩,
    fun p => by cases p <;> decide, fun p => by cases p <;> decide, ?_⟩
  unfold ChordAgrees
  decide +kernel

theorem witness_EveryStepKeepsHaltedTrucksStanding :
    step (stepping (halted standing)) = .next (after (.slotStart true) (halted standing))
      ∧ HaltedStand (stepping (halted standing)) ∧ (stepping (halted standing)).hls.halted = true := by
  refine ⟨rfl, ?_, rfl⟩
  unfold HaltedStand MembersActive OthersStand
  decide +kernel

/-- Convoy 1 waits in the queue of section 1. -/
theorem witness_EveryStepKeepsTheQueueLaw :
    let s := stepping (standing.join 0 1 1 (.sec 1))
    step s = .next (after (.slotStart true) (standing.join 0 1 1 (.sec 1))) ∧ QueuesAgree s
      ∧ s.queue (.sec 1) = [⟨0, 1, 1, 0⟩] := by
  refine ⟨rfl, queuesAgree_of ?_ ?_ ?_, ?_⟩ <;> decide +kernel

theorem witness_NothingIsGrantedWhileHalted :
    step (stepping (halted standing)) = .next (after (.slotStart true) (halted standing))
      ∧ (halted standing).hls.halted = true ∧ (after (.slotStart true) (halted standing)).hls.halted = true
      ∧ (halted standing).secHolder 1 = none ∧ ((halted standing).grp 0).holder = none := by
  refine ⟨rfl, rfl, ?_⟩
  decide +kernel

end Sys2Proof.Tests
end

section
/-!
SUPPORT. Which operations leave the aux queues as they are (R141): all that road, passages, faults, halts and the supply
can reach, but a truck that leaves its convoy.
-/

namespace Sys2Proof.Machine

open Sys2Proof

/-- A frame without the Dispatcher leaves it as it is. -/
theorem KeepsAllBut.rds {s t : State} {bs : List Block} (h : KeepsAllBut s t bs)
    (hb : Block.dispatcher ∉ bs := by decide) : t.rds = s.rds := h _ hb

namespace State

variable (s : State)

/-! ### The operations that leave the Dispatcher alone -/

@[simp] theorem setUnit_rds (c : Conv) (u : Nat) (r : RunState) : (s.setUnit c u r).rds = s.rds :=
  (s.setUnit_frame c u r).rds
@[simp] theorem unitsDown_rds (c : Conv) : (s.unitsDown c).rds = s.rds := (s.unitsDown_frame c).rds
@[simp] theorem modRecord_rds (c : Conv) (j : Nat) (f : Crossing → Crossing) : (s.modRecord c j f).rds = s.rds :=
  (s.modRecord_frame c j f).rds
@[simp] theorem restartUnit_rds (c : Conv) (u : Nat) : (s.restartUnit c u).rds = s.rds := (s.restartUnit_frame c u).rds
@[simp] theorem restartUnits_rds (c : Conv) : (s.restartUnits c).rds = s.rds := (s.restartUnits_frame c).rds
@[simp] theorem setState_rds (c : Conv) (st : ConvoyState) : (s.setState c st).rds = s.rds :=
  (s.setState_frame c st).rds
@[simp] theorem modQueue_rds (r : Resource) (f : List Entry → List Entry) : (s.modQueue r f).rds = s.rds :=
  (s.modQueue_frame r f).rds
@[simp] theorem cancelWatch_rds (c : Conv) : (s.cancelWatch c).rds = s.rds := (s.cancelWatch_frame c).rds
@[simp] theorem releaseList_rds (c : Conv) (rs : List Resource) : (s.releaseList c rs).rds = s.rds :=
  (s.releaseList_frame c rs).rds
@[simp] theorem withdraw_rds (c : Conv) : (s.withdraw c).rds = s.rds := (s.withdraw_frame c).rds
@[simp] theorem join_rds (c : Conv) (k : Nat) (x : Sec) (r : Resource) : (s.join c k x r).rds = s.rds :=
  (s.join_frame c k x r).rds
@[simp] theorem refuse_rds (c : Conv) (x : Sec) (r : Resource) : (s.refuse c x r).rds = s.rds :=
  (s.refuse_frame c x r).rds
@[simp] theorem holdResource_rds (c : Conv) (r : Resource) : (s.holdResource c r).rds = s.rds :=
  (s.holdResource_frame c r).rds
@[simp] theorem tailLeft_rds (c : Conv) (j : Nat) : (s.tailLeft c j).rds = s.rds := (s.tailLeft_frame c j).rds
@[simp] theorem occupied_rds (x : Sec) : (s.occupied x).rds = s.rds := (s.occupied_frame x).rds
@[simp] theorem interlockFault_rds (c : Conv) : (s.interlockFault c).rds = s.rds := (s.interlockFault_frame c).rds
@[simp] theorem faultNotice_rds (c : Conv) (f : ConvoyFault) (n : Nat) : (s.faultNotice c f n).rds = s.rds :=
  (s.faultNotice_frame c f n).rds
@[simp] theorem handGap_rds (c : Conv) (k j g tg : Nat) : (s.handGap c k j g tg).rds = s.rds :=
  (s.handGap_frame c k j g tg).rds
@[simp] theorem lowerTo_rds (n : Nat) (a : Addr) : (s.lowerTo n a).rds = s.rds := (s.lowerTo_frame n a).rds
@[simp] theorem allUnitsDown_rds : s.allUnitsDown.rds = s.rds := s.allUnitsDown_frame.rds
@[simp] theorem anyOrder_rds {α : Type} (l : List α) : (s.anyOrder l).2.rds = s.rds := (s.anyOrder_frame l).rds
@[simp] theorem addSeen_rds (d : Inp) : (s.addSeen d).rds = s.rds := (s.addSeen_frame d).rds
@[simp] theorem causeAbsent_rds (c : Cause) : (s.causeAbsent c).rds = s.rds := (s.causeAbsent_frame c).rds

/-! ### The operations that change a truck's record there, and no aux queue -/

theorem forEach_auxQueues {α : Type} {f : State → α → State}
    (h : ∀ (t : State) (a : α), (f t a).rds.auxQueues = t.rds.auxQueues) (l : List α) :
    (s.forEach l f).rds.auxQueues = s.rds.auxQueues := forEach_keeps (fun t => t.rds.auxQueues) f h s l

@[simp] theorem markBranch_auxQueues (a : Addr) : (s.markBranch a).rds.auxQueues = s.rds.auxQueues := by
  unfold markBranch
  split <;> rfl

@[simp] theorem hardStop_auxQueues (a : Addr) : (s.hardStop a).rds.auxQueues = s.rds.auxQueues := rfl

@[simp] theorem hardStopAll_auxQueues (c : Conv) : (s.hardStopAll c).rds.auxQueues = s.rds.auxQueues :=
  forEach_auxQueues s hardStop_auxQueues _

@[simp] theorem applyTarget_auxQueues (a : Addr) (n : Nat) : (s.applyTarget a n).rds.auxQueues = s.rds.auxQueues := by
  unfold applyTarget
  split
  · rfl
  · split <;> rfl

@[simp] theorem retarget_auxQueues (c : Conv) (st : ConvoyState) :
    (s.retarget c st).rds.auxQueues = s.rds.auxQueues := by
  unfold retarget
  split <;> simp

@[simp] theorem recomputeTarget_auxQueues (c : Conv) : (s.recomputeTarget c).rds.auxQueues = s.rds.auxQueues := by
  unfold recomputeTarget
  split <;> simp

@[simp] theorem recomputeAllTargets_auxQueues : s.recomputeAllTargets.rds.auxQueues = s.rds.auxQueues := by
  unfold recomputeAllTargets
  exact forEach_auxQueues s recomputeTarget_auxQueues _

@[simp] theorem vmaxChanged_auxQueues (c : Conv) : (s.vmaxChanged c).rds.auxQueues = s.rds.auxQueues :=
  (recomputeTarget_auxQueues _ c).trans (forEach_auxQueues s (fun t a => by simp) _)

@[simp] theorem supplyLowered_auxQueues : s.supplyLowered.rds.auxQueues = s.rds.auxQueues := by
  rw [supplyLowered, recomputeAllTargets_auxQueues]
  exact forEach_auxQueues s (fun t a => by simp) _

@[simp] theorem recomputePeriod_auxQueues : s.recomputePeriod.rds.auxQueues = s.rds.auxQueues := rfl

@[simp] theorem standUnit_auxQueues (c : Conv) (u : Nat) : (s.standUnit c u).rds.auxQueues = s.rds.auxQueues := by
  unfold standUnit
  dsimp only
  split <;> simp

@[simp] theorem standDown_auxQueues (c : Conv) : (s.standDown c).rds.auxQueues = s.rds.auxQueues :=
  forEach_auxQueues s (fun t u => by
    unfold standDownUnit
    split
    · simp
    · split <;> simp) _

@[simp] theorem standRest_auxQueues (c : Conv) : (s.standRest c).rds.auxQueues = s.rds.auxQueues :=
  forEach_auxQueues s (fun t u => by split <;> simp) _

@[simp] theorem unitSteps_auxQueues (c : Conv) (k j u : Nat) :
    (s.unitSteps c k j u).rds.auxQueues = s.rds.auxQueues := by
  have stands (t : State) : (t.standDownStep c k j u).rds.auxQueues = t.rds.auxQueues := by
    simp only [standDownStep, apply_ite State.rds, apply_ite Dispatcher.auxQueues, standUnit_auxQueues, ite_self]
  have restarts (t : State) : (t.restartStep c k u).rds = t.rds := by
    simp only [restartStep, apply_ite State.rds, restartUnit_rds, ite_self]
  have waits (t : State) : (t.stoppedAheadStep c k u).rds = t.rds := by
    simp only [stoppedAheadStep, apply_ite State.rds, setUnit_rds, ite_self]
  rw [unitSteps, waits, restarts, stands]

@[simp] theorem afterPassage_auxQueues (c : Conv) (k j : Nat) :
    (s.afterPassage c k j).rds.auxQueues = s.rds.auxQueues :=
  forEach_auxQueues s (fun t u => t.unitSteps_auxQueues c k j u) _

@[simp] theorem restart_auxQueues (c : Conv) : (s.restart c).rds.auxQueues = s.rds.auxQueues := by
  unfold restart
  dsimp only
  split <;> simp

@[simp] theorem restartAll_auxQueues : s.restartAll.rds.auxQueues = s.rds.auxQueues := by
  unfold restartAll
  exact forEach_auxQueues s (fun t c => by split <;> simp) _

@[simp] theorem tellEffective_auxQueues (c : Conv) : (s.tellEffective c).rds.auxQueues = s.rds.auxQueues := by
  unfold tellEffective
  split <;> simp

@[simp] theorem updateBranch_auxQueues (c : Conv) (a : Addr) (j : Nat) :
    (s.updateBranch c a j).rds.auxQueues = s.rds.auxQueues := by
  unfold updateBranch
  split
  · rfl
  · split <;> simp

@[simp] theorem updateAllBranches_auxQueues (c : Conv) : (s.updateAllBranches c).rds.auxQueues = s.rds.auxQueues :=
  forEach_auxQueues s (fun t _ => t.updateBranch_auxQueues c _ _) _

@[simp] theorem memberBranch_auxQueues (c : Conv) (k j : Nat) :
    (s.memberBranch c k j).rds.auxQueues = s.rds.auxQueues := by
  unfold memberBranch
  split <;> simp

@[simp] theorem evalWatch_auxQueues (c : Conv) : (s.evalWatch c).rds.auxQueues = s.rds.auxQueues := by
  unfold evalWatch
  split
  · rfl
  · split
    · rfl
    · dsimp only
      split <;> simp

@[simp] theorem watchEffective_auxQueues (c : Conv) (m : Nat) :
    (s.watchEffective c m).rds.auxQueues = s.rds.auxQueues := by
  unfold watchEffective
  dsimp only
  split <;> simp

@[simp] theorem watchFrame_auxQueues (c : Conv) : (s.watchFrame c).rds.auxQueues = s.rds.auxQueues := by
  unfold watchFrame
  split
  · dsimp only
    split <;> simp
  · rfl
  · rfl
  · rfl

@[simp] theorem grantTo_auxQueues (r : Resource) (e : Entry) : (s.grantTo r e).rds.auxQueues = s.rds.auxQueues := by
  unfold grantTo
  dsimp only
  split <;> simp

@[simp] theorem scanFuel_auxQueues (fuel : Nat) (r : Resource) :
    (s.scanFuel fuel r).rds.auxQueues = s.rds.auxQueues := by
  induction fuel generalizing s r with
  | zero => rfl
  | succ n ih =>
    unfold scanFuel
    split
    · rfl
    · dsimp only
      split
      · simp
      · split
        · simp
        · simp [ih]

@[simp] theorem scan_auxQueues (r : Resource) : (s.scan r).rds.auxQueues = s.rds.auxQueues := s.scanFuel_auxQueues _ r

@[simp] theorem scanFor_auxQueues (x : Sec) : (s.scanFor x).rds.auxQueues = s.rds.auxQueues := s.scan_auxQueues _

@[simp] theorem scanAll_auxQueues (rs : List Resource) : (s.scanAll rs).rds.auxQueues = s.rds.auxQueues := by
  unfold scanAll
  exact (forEach_auxQueues _ scan_auxQueues _).trans (congrArg Dispatcher.auxQueues (anyOrder_rds s _))

@[simp] theorem request_auxQueues (c : Conv) : (s.request c).rds.auxQueues = s.rds.auxQueues := by
  unfold request
  split
  · rfl
  · dsimp only
    split <;> simp

@[simp] theorem headAdvanced_auxQueues (c : Conv) : (s.headAdvanced c).rds.auxQueues = s.rds.auxQueues := by
  unfold headAdvanced
  dsimp only
  split <;> simp

@[simp] theorem stopFaulty_auxQueues (c : Conv) (f : ConvoyFault) :
    (s.stopFaulty c f).rds.auxQueues = s.rds.auxQueues := by
  unfold stopFaulty
  split <;> simp

@[simp] theorem fault_auxQueues (c : Conv) (f : ConvoyFault) (n : Nat) :
    (s.fault c f n).rds.auxQueues = s.rds.auxQueues := by simp [fault]

@[simp] theorem enterWaiting_auxQueues (c : Conv) : (s.enterWaiting c).rds.auxQueues = s.rds.auxQueues := by
  unfold enterWaiting raiseWaiting
  dsimp only
  split <;> simp

@[simp] theorem checkArrived_auxQueues (c : Conv) : (s.checkArrived c).rds.auxQueues = s.rds.auxQueues := by
  unfold checkArrived
  split <;> simp

@[simp] theorem enterArriving_auxQueues (c : Conv) : (s.enterArriving c).rds.auxQueues = s.rds.auxQueues := by
  unfold enterArriving
  dsimp only
  split <;> simp

@[simp] theorem advanceTail_auxQueues (c : Conv) (j : Nat) : (s.advanceTail c j).rds.auxQueues = s.rds.auxQueues := by
  unfold advanceTail
  split
  · rfl
  · split <;> simp

@[simp] theorem memberCrossing_auxQueues (c : Conv) (r : Crossing) :
    (s.memberCrossing c r).rds.auxQueues = s.rds.auxQueues := by
  simp only [memberCrossing, advanceTail_auxQueues, afterPassage_auxQueues, memberBranch_auxQueues,
    apply_ite State.rds, modRecord_rds, handGap_rds, ite_self]

@[simp] theorem noBrakeStop_auxQueues (c : Conv) (x : Sec) : (s.noBrakeStop c x).rds.auxQueues = s.rds.auxQueues := by
  unfold noBrakeStop
  split <;> simp

@[simp] theorem leaderCrossing_auxQueues (c : Conv) (x : Sec) :
    (s.leaderCrossing c x).rds.auxQueues = s.rds.auxQueues := by
  unfold leaderCrossing
  dsimp only
  split <;> simp

@[simp] theorem overrun_auxQueues (c : Conv) (x : Sec) : (s.overrun c x).rds.auxQueues = s.rds.auxQueues := by
  unfold overrun
  split <;> simp

@[simp] theorem stray_auxQueues (x : Sec) (d : Inp) : (s.stray x d).rds.auxQueues = s.rds.auxQueues := by
  unfold stray
  split <;> simp

@[simp] theorem entryPassage_auxQueues (x : Sec) (d : Inp) : (s.entryPassage x d).rds.auxQueues = s.rds.auxQueues := by
  unfold entryPassage
  split <;> simp

@[simp] theorem brakePassage_auxQueues (x : Sec) : (s.brakePassage x).rds.auxQueues = s.rds.auxQueues := by
  unfold brakePassage
  split
  · unfold leaderBrake
    dsimp only
    split
    · split
      · simp
      · split <;> simp
    · split <;> simp
  · rfl

@[simp] theorem gapLost_auxQueues (c : Conv) (r : Crossing) : (s.gapLost c r).rds.auxQueues = s.rds.auxQueues := by
  unfold gapLost
  dsimp only
  split <;> simp

@[simp] theorem enterHalt_auxQueues : s.enterHalt.rds.auxQueues = s.rds.auxQueues := by
  simp only [enterHalt, allUnitsDown_rds, modRds_rds]
  exact forEach_auxQueues _ hardStop_auxQueues _

@[simp] theorem causePresent_auxQueues (c : Cause) : (s.causePresent c).rds.auxQueues = s.rds.auxQueues := by
  unfold causePresent
  dsimp only
  split
  · rfl
  · split <;> simp

@[simp] theorem compareLow_auxQueues : s.compareLow.rds.auxQueues = s.rds.auxQueues := by
  unfold compareLow moveLow
  split <;> simp

@[simp] theorem compareNormal_auxQueues : s.compareNormal.rds.auxQueues = s.rds.auxQueues := by
  unfold compareNormal moveNormal
  split <;> simp

@[simp] theorem compareSupply_auxQueues : s.compareSupply.rds.auxQueues = s.rds.auxQueues := by
  unfold compareSupply
  split <;> simp

@[simp] theorem updateChord_auxQueues : s.updateChord.rds.auxQueues = s.rds.auxQueues := by
  unfold updateChord
  split
  · simp
  · split <;> simp

end State

end Sys2Proof.Machine
end

section
/-!
SUPPORT. The laws of O57 as relations between the states before and after: what an effect keeps (`KeepsLaws`,
`Orderly`), what each law reads, and that the end of an event keeps what its effect keeps (`StepKeeps.event`).
-/

namespace Sys2Proof.Machine

open Sys2Proof

/-! ### The relations of the proof -/

/-- The three laws that an effect keeps: the map's ranges, the queues' room, the chord's agreement. -/
structure KeepsLaws (s t : State) : Prop where
  map : MapInRange s → MapInRange t
  room : WithinRoom s → WithinRoom t
  chord : ChordAgrees s → ChordAgrees t

/-- An effect that keeps the laws and takes no further place in a reply queue, so that the reply of the request that it
belongs to still finds the place that R149 looked for. -/
structure Orderly (s t : State) : Prop extends KeepsLaws s t where
  places : ∀ p, (t.port p).placesTaken ≤ (s.port p).placesTaken

/-- What a whole step keeps. -/
structure StepKeeps (s t : State) : Prop extends KeepsLaws s t where
  quiet : Quiet s → Quiet t
  busy : NothingWaitsIdle s → NothingWaitsIdle t

theorem KeepsLaws.trans {s t u : State} (h : KeepsLaws s t) (k : KeepsLaws t u) : KeepsLaws s u :=
  ⟨fun hs => k.map (h.map hs), fun hs => k.room (h.room hs), fun hs => k.chord (h.chord hs)⟩

theorem Orderly.refl (s : State) : Orderly s s := ⟨⟨id, id, id⟩, fun _ => Nat.le_refl _⟩

theorem Orderly.trans {s t u : State} (h : Orderly s t) (k : Orderly t u) : Orderly s u :=
  ⟨h.toKeepsLaws.trans k.toKeepsLaws, fun p => (k.places p).trans (h.places p)⟩

theorem Orderly.ite {s t u : State} {c : Prop} [Decidable c] (h : Orderly s t) (k : Orderly s u) :
    Orderly s (if c then t else u) := by
  split
  · exact h
  · exact k

theorem Orderly.forEach {α : Type} {f : State → α → State} (h : ∀ s a, Orderly s (f s a)) (s : State) (l : List α) :
    Orderly s (s.forEach l f) := State.forEach_inv (Orderly s) f (fun _ a k => k.trans (h _ a)) s l (.refl s)

theorem StepKeeps.refl (s : State) : StepKeeps s s := ⟨⟨id, id, id⟩, id, id⟩

theorem StepKeeps.trans {s t u : State} (h : StepKeeps s t) (k : StepKeeps t u) : StepKeeps s u :=
  ⟨h.toKeepsLaws.trans k.toKeepsLaws, fun hs => k.quiet (h.quiet hs), fun hs => k.busy (h.busy hs)⟩

/-! ### What each law reads -/

/-- The map's ranges are about its profiles and its settings. -/
theorem MapInRange.of_eq {s t : State} (hp : t.map.profiles = s.map.profiles) (hs : t.map.settings = s.map.settings)
    (h : MapInRange s) : MapInRange t := by
  have level (p : Port) : t.level p = s.level p := congrArg (fun k : Settings => k.levels.nth p) hs
  simpa only [MapInRange, level, hp, hs] using h

/-- The chord is read from the settings and from the accepted levels of the inputs (R45, R46). -/
theorem State.chordComplete_congr {s t : State} (hs : t.map.settings = s.map.settings)
    (hi : ∀ d, (t.input d).cond.accepted = (s.input d).cond.accepted) : t.chordComplete = s.chordComplete := by
  simp only [chordComplete, chordSet, hs, hi]

theorem ChordAgrees.of_eq {s t : State} (hs : t.map.settings = s.map.settings)
    (hi : ∀ d, (t.input d).cond.accepted = (s.input d).cond.accepted) (hd : t.dfe.chord = s.dfe.chord)
    (hh : t.hls.chord = s.hls.chord) (hr : t.running = s.running) (h : ChordAgrees s) : ChordAgrees t := by
  simpa only [ChordAgrees, State.chordComplete_congr hs hi, hd, hh, hr] using h

/-- A state whose ports and aux queues are those of another has its room. -/
theorem WithinRoom.of_eq {s t : State} (hp : t.ports = s.ports) (ha : t.rds.auxQueues = s.rds.auxQueues)
    (h : WithinRoom s) : WithinRoom t := by
  simpa only [WithinRoom, State.port, State.auxQueue, hp, ha] using h

/-- The room of the reply queues and of the notice queues, where the aux queues stay. -/
theorem WithinRoom.of_ports {s t : State} (ha : t.rds.auxQueues = s.rds.auxQueues)
    (hp : ∀ p, (t.port p).placesTaken ≤ (s.port p).placesTaken)
    (hn : ∀ p, (s.port p).notices.length ≤ 16 → (t.port p).notices.length ≤ 16) (h : WithinRoom s) : WithinRoom t :=
  fun p => by
    obtain ⟨places, notices, aux⟩ := h p
    refine ⟨(hp p).trans places, hn p notices, ?_⟩
    simpa only [State.auxQueue, ha] using aux

/-- The room of the aux queues, where the ports stay. -/
theorem WithinRoom.of_aux {s t : State} (hp : t.ports = s.ports)
    (ha : ∀ p, (t.auxQueue p).length ≤ (s.auxQueue p).length) (h : WithinRoom s) : WithinRoom t := fun p => by
  obtain ⟨places, notices, aux⟩ := h p
  have port : t.port p = s.port p := congrArg (fun ps => PerPort.nth ps p) hp
  exact ⟨port ▸ places, port ▸ notices, (ha p).trans aux⟩

/-- An effect on nothing that the laws read, but for aux queues that become shorter. -/
theorem Orderly.of_le {s t : State} (hm : t.mu = s.mu) (hd : t.dfe = s.dfe) (hp : t.ports = s.ports)
    (hh : t.hls.chord = s.hls.chord) (ha : ∀ p, (t.auxQueue p).length ≤ (s.auxQueue p).length) : Orderly s t where
  map := .of_eq (congrArg (fun k : MapUnit => k.map.profiles) hm) (congrArg (fun k : MapUnit => k.map.settings) hm)
  room := .of_aux hp ha
  chord := .of_eq (congrArg (fun k : MapUnit => k.map.settings) hm) (fun d => by simp only [State.input, hd])
    (congrArg FrontEnd.chord hd) hh (by simp only [State.running, hm])
  places p := by simp only [State.port, hp, Nat.le_refl]

/-- An effect on nothing that the laws read. -/
theorem Orderly.of_eq {s t : State} (hm : t.mu = s.mu) (hd : t.dfe = s.dfe) (hp : t.ports = s.ports)
    (hh : t.hls.chord = s.hls.chord) (ha : t.rds.auxQueues = s.rds.auxQueues) : Orderly s t :=
  .of_le hm hd hp hh fun p => by simp only [State.auxQueue, ha, Nat.le_refl]

/-- An effect within the reach of the road, which leaves the aux queues as they are. -/
theorem Orderly.of_reach {s t : State} {bs : List Block} (h : KeepsAllBut s t bs)
    (ha : t.rds.auxQueues = s.rds.auxQueues) (hb : ∀ b ∈ bs, b ∈ State.reach := by decide) : Orderly s t := by
  have h : KeepsAllBut s t State.reach := h.mono hb
  exact .of_eq (h .mapUnit (by decide)) (h .frontEnd (by decide)) (h .consolePorts (by decide))
    (congrArg HaltSupervisor.chord (h .haltSupervisor (by decide))) ha

/-! ### The end of an event (R154, R158) -/

/-- A notice that joins a queue takes a free place or that of another notice (R158). -/
theorem joinQueue_length (q : List Notice) (n : Notice) (h : q.length ≤ 16) : (joinQueue q n).length ≤ 16 := by
  unfold joinQueue
  split
  · rename_i hroom
    have : q.length < 16 := hroom
    simp only [List.length_append, List.length_singleton]
    omega
  · split
    · rename_i i hi
      have lt : i < q.length := (List.findIdx?_eq_some_iff_getElem.mp hi).1
      simp only [List.length_append, List.length_eraseIdx_of_lt lt, List.length_singleton]
      omega
    · split
      · have : 16 ≤ q.length := Nat.not_lt.mp ‹¬ q.length < noticeRoom›
        simp only [List.length_append, List.length_tail, List.length_singleton]
        omega
      · exact h

theorem PortState.notify_placesTaken (q : PortState) (n : Notice) : (q.notify n).placesTaken = q.placesTaken := by
  unfold notify
  split <;> rfl

theorem PortState.notify_notices (q : PortState) (n : Notice) (h : q.notices.length ≤ 16) :
    (q.notify n).notices.length ≤ 16 := by
  unfold notify
  split
  · exact joinQueue_length _ _ h
  · exact h

/-- The look of a transmitter empties queues and fills none (R154). -/
theorem PortState.look_room (q : PortState) :
    q.look.placesTaken ≤ q.placesTaken ∧ q.look.notices.length ≤ q.notices.length := by
  unfold look
  split
  · unfold startReply
    split
    · exact ⟨Nat.le_refl _, Nat.le_refl _⟩
    · rename_i hq
      simp [placesTaken, hq]
  · split
    · exact ⟨Nat.le_refl _, Nat.zero_le _⟩
    · exact ⟨Nat.le_refl _, Nat.le_refl _⟩

/-- An update of one port that keeps its room. -/
theorem WithinRoom.modPort {s : State} (p : Port) (f : PortState → PortState)
    (hp : (f (s.port p)).placesTaken ≤ (s.port p).placesTaken)
    (hn : (s.port p).notices.length ≤ 16 → (f (s.port p)).notices.length ≤ 16) (h : WithinRoom s) :
    WithinRoom (s.modPort p f) := by
  refine .of_ports (s := s) rfl (fun q => ?_) (fun q => ?_) h
  · by_cases hq : q = p
    · subst hq
      rwa [State.port_modPort_self]
    · rw [State.port_modPort_ne _ _ hq]
  · by_cases hq : q = p
    · subst hq
      rwa [State.port_modPort_self]
    · rw [State.port_modPort_ne _ _ hq]
      exact id

theorem WithinRoom.deliverOne {s : State} (r : Raised) (h : WithinRoom s) : WithinRoom (s.deliverOne r) :=
  State.forEach_inv WithinRoom _ (fun _ p ht => ht.modPort p (fun q => q.notify r.notice)
    (PortState.notify_placesTaken _ _).le (PortState.notify_notices _ _)) s r.ports h

theorem WithinRoom.anyOrder {s : State} {α : Type} (l : List α) (h : WithinRoom s) : WithinRoom (s.anyOrder l).2 := by
  obtain ⟨k, hk⟩ := s.anyOrder_state l
  rw [hk]
  exact h

theorem WithinRoom.deliver {s : State} (h : WithinRoom s) : WithinRoom s.deliver := by
  unfold State.deliver
  exact State.forEach_inv WithinRoom _
    (fun _ c ht => State.forEach_inv WithinRoom _ (fun _ r hu => hu.deliverOne r) _ _
      (ht.anyOrder (raisedFor s.raised c))) _ _ h

theorem WithinRoom.looked {s : State} (h : WithinRoom s) : WithinRoom s.looked := by
  refine .of_ports (s := s) rfl (fun p => ?_) (fun p hn => ?_) h
  · rw [State.port_looked]
    exact (s.port p).look_room.1
  · rw [State.port_looked]
    exact (s.port p).look_room.2.trans hn

/-- An event whose effect keeps the laws: its notices join queues that have room, no notice is left, and the
transmitters look. -/
theorem StepKeeps.event {s : State} {f : State → State}
    (h : KeepsLaws { s with eventNo := s.eventNo + 1 } (f { s with eventNo := s.eventNo + 1 })) :
    StepKeeps s (s.event f) where
  map hs := by
    rw [State.event_keeps MapInRange fun _ _ _ _ => rfl]
    exact h.map hs
  room hs := (h.room hs).deliver.looked
  chord hs := by
    rw [State.event_keeps ChordAgrees fun _ _ _ _ => rfl]
    exact h.chord hs
  quiet _ := s.event_raised f
  busy _ := s.event_busy f

end Sys2Proof.Machine
end

section
/-!
SUPPORT. Time, halt causes, the supply and the chord under the laws of O57.
-/

namespace Sys2Proof.Machine

open Sys2Proof

namespace State

variable (s : State)

/-! ### Time that passes -/

@[simp] theorem advance_map (ms : Nat) : (s.advance ms).map = s.map := by
  unfold advance
  split <;> rfl

@[simp] theorem advance_raised (ms : Nat) : (s.advance ms).raised = s.raised := by
  unfold advance
  split <;> rfl

@[simp] theorem advance_hls (ms : Nat) : (s.advance ms).hls = s.hls := by
  unfold advance
  split <;> rfl

@[simp] theorem advance_chord (ms : Nat) : (s.advance ms).dfe.chord = s.dfe.chord := by
  unfold advance
  split <;> rfl

@[simp] theorem advance_running (ms : Nat) : (s.advance ms).running = s.running := by
  unfold advance
  split <;> rfl

/-- Time moves the check timer of an input, and neither its line nor its state. -/
theorem advance_input (ms : Nat) (d : Inp) :
    ∃ timer, (s.advance ms).input d = { s.input d with timer := timer } := by
  unfold advance
  split
  · exact ⟨_, rfl⟩
  · exact ⟨_, tab_nth_map _ _ _⟩

@[simp] theorem advance_cond (ms : Nat) (d : Inp) : ((s.advance ms).input d).cond = (s.input d).cond := by
  obtain ⟨timer, h⟩ := s.advance_input ms d
  rw [h]

@[simp] theorem advance_auxQueues (ms : Nat) : (s.advance ms).rds.auxQueues = s.rds.auxQueues := by
  unfold advance
  split
  · rfl
  · dsimp only
    split <;> rfl

/-- Time moves the watch, the flush timer and the message of a port, if anything. -/
theorem advance_port (ms : Nat) (p : Port) :
    (s.advance ms).port p = s.port p ∨ (s.advance ms).port p = (s.port p).elapse ms := by
  unfold advance
  split
  · exact .inl rfl
  · simp only [port]
    split
    · exact .inl rfl
    · exact .inr (perPort_nth_map _ _ _)

end State

/-- Time neither frees a transmitter nor starts a batch: the flush timer runs out at an event of its own. -/
theorem PortState.elapse_waits (q : PortState) (ms : Nat) :
    (q.elapse ms).canReply = q.canReply ∧ (q.elapse ms).canBatch = q.canBatch := by
  have idle : (q.elapse ms).tx.isIdle = q.tx.isIdle := by
    cases h : q.tx <;> simp [elapse, Transmitter.elapse, h, Transmitter.isIdle]
  have expired : ((q.elapse ms).flush == .expired) = (q.flush == .expired) := by
    cases h : q.flush <;> simp [elapse, Flush.elapse, h]
  constructor
  · simp only [canReply, idle]
    rfl
  · simp only [canBatch, batchReady, idle, expired]
    rfl

theorem StepKeeps.advance (s : State) (ms : Nat) : StepKeeps s (s.advance ms) where
  map := .of_eq (by simp) (by simp)
  room := .of_ports (by simp)
    (fun p => by rcases s.advance_port ms p with h | h <;> exact (congrArg PortState.placesTaken h).le)
    (fun p hn => by
      rcases s.advance_port ms p with h | h <;> exact (congrArg (fun q => q.notices.length) h).le.trans hn)
  chord := .of_eq (by simp) (by simp) (by simp) (by simp) (by simp)
  quiet hs := (s.advance_raised ms).trans hs
  busy hs p := by
    rcases s.advance_port ms p with h | h
    · rw [h]
      exact hs p
    · rw [h, ((s.port p).elapse_waits ms).1, ((s.port p).elapse_waits ms).2]
      exact hs p

/-- An event that a timer brings keeps what its effect keeps after the time that the timer had left. -/
theorem StepKeeps.atExpiry {s : State} {left : Option Nat} {f : State → State}
    (h : ∀ ms, left = some ms → KeepsLaws { s.advance ms with eventNo := (s.advance ms).eventNo + 1 }
      (f { s.advance ms with eventNo := (s.advance ms).eventNo + 1 })) : StepKeeps s (s.atExpiry left f) := by
  cases left with
  | none => exact .refl s
  | some ms => exact (StepKeeps.advance s ms).trans (.event (h ms rfl))

namespace State

variable (s : State)

/-! ### Causes and the supply (R160, R161, R165) -/

theorem enterHalt_hls : s.enterHalt.hls = { s.hls with halted := true } := by
  have stops (l : List Addr) (t : State) : (t.forEach l hardStop).hls = t.hls := 
    forEach_keeps State.hls hardStop (fun _ _ => rfl) t l
  have units (t : State) : t.allUnitsDown.hls = t.hls := t.allUnitsDown_frame .haltSupervisor (by decide)
  rw [enterHalt, units, modRds_hls, stops, modHls_hls]

/-- A cause made present is present, and the other causes stay as they are (R160). -/
theorem causePresent_chord (c : Cause) : (s.causePresent c).hls.chord = if c = .chord then true else s.hls.chord := by
  unfold causePresent
  dsimp only
  split
  · rename_i h
    cases c
    case chord => simpa [HaltSupervisor.has] using h
    all_goals rfl
  · rw [raise_hls, apply_ite State.hls, enterHalt_hls, modHls_hls, apply_ite HaltSupervisor.chord, ite_self]
    cases c <;> simp [HaltSupervisor.put]

@[simp] theorem causePresent_dfe (c : Cause) : (s.causePresent c).dfe = s.dfe :=
  s.causePresent_frame c .frontEnd (by decide)

theorem compareLow_frame : KeepsAllBut s s.compareLow [.governor, .dispatcher, .haltSupervisor] :=
  .ite (((s.modHls_frame _).mono.trans (supplyLowered_frame _).mono).trans (raise_frame _ _ _).mono) (.refl _ _)

/-- The supply comparison moves the supply state and no halt cause (R165). -/
theorem compareLow_chord : s.compareLow.hls.chord = s.hls.chord := by
  have lowered (t : State) : t.supplyLowered.hls = t.hls := t.supplyLowered_frame .haltSupervisor (by decide)
  unfold compareLow moveLow
  split
  · rw [raise_hls, lowered, modHls_hls]
  · rfl

theorem compareSupply_chord : s.compareSupply.hls.chord = s.hls.chord := by
  have targets (t : State) : t.recomputeAllTargets.hls = t.hls :=
    t.recomputeAllTargets_frame .haltSupervisor (by decide)
  unfold compareSupply compareNormal
  split
  · unfold moveNormal
    split
    · rw [raise_hls, targets, modHls_hls]
    · rfl
  · exact s.compareLow_chord

theorem causePresent_orderly (c : Cause) (hc : c ≠ .chord) : Orderly s (s.causePresent c) :=
  have h := s.causePresent_frame c
  .of_eq (h .mapUnit (by decide)) (h .frontEnd (by decide)) (h .consolePorts (by decide))
    (by rw [causePresent_chord, if_neg hc]) (by simp)

theorem compareSupply_orderly : Orderly s s.compareSupply :=
  have h := s.compareSupply_frame
  .of_eq (h .mapUnit (by decide)) (h .frontEnd (by decide)) (h .consolePorts (by decide))
    s.compareSupply_chord (by simp)

/-! ### The chord (R45 to R47) -/

/-- The chord state follows the chord, and the CHORD cause the chord state, from any state in which the two agree (R46,
R160). -/
theorem updateChord_agrees (h : s.hls.chord = s.dfe.chord) :
    s.updateChord.dfe.chord = s.chordComplete ∧ s.updateChord.hls.chord = s.updateChord.dfe.chord := by
  unfold updateChord
  split
  · rename_i hc
    have complete : s.chordComplete = true := (Bool.and_eq_true_iff.mp hc).1
    rw [causePresent_dfe, causePresent_chord]
    simp [complete]
  · split
    · rename_i hc
      have complete : s.chordComplete = false := by simpa using (Bool.and_eq_true_iff.mp hc).1
      simp [causeAbsent, HaltSupervisor.put, complete]
    · rename_i hset hclear
      refine ⟨?_, h⟩
      cases hd : s.dfe.chord <;> cases hk : s.chordComplete <;> simp_all

/-- The chord is looked up in the inputs, which its state's own change leaves alone. -/
theorem updateChord_inputs : s.updateChord.dfe.inputs = s.dfe.inputs := by
  unfold updateChord
  split
  · rw [causePresent_dfe]
  · split <;> rfl

/-- The chord updated after a change of inputs or settings in a running part: the chord's law holds again. -/
theorem updateChord_orderly {s u : State} (hrun : u.running = true) (hhls : u.hls = s.hls)
    (hchord : u.dfe.chord = s.dfe.chord) (hports : u.ports = s.ports) (haux : u.rds.auxQueues = s.rds.auxQueues)
    (hmap : MapInRange s → MapInRange u) : Orderly s u.updateChord := by
  have frame := u.updateChord_frame
  have mu : u.updateChord.mu = u.mu := frame .mapUnit (by decide)
  have ports : u.updateChord.ports = s.ports := (frame .consolePorts (by decide)).trans hports
  refine ⟨⟨fun hs => ?_, .of_eq ports (by rw [updateChord_auxQueues, haux]), fun hs => ?_⟩, fun p => ?_⟩
  · exact .of_eq (by simp only [State.map, mu]) (by simp only [State.map, mu]) (hmap hs)
  · obtain ⟨-, agree, -⟩ := hs
    obtain ⟨chord, cause⟩ := u.updateChord_agrees (by rw [hhls, hchord, agree])
    refine ⟨?_, cause, fun h => ?_⟩
    · rw [chord]
      exact (chordComplete_congr (by simp only [State.map, mu]) fun d => by
        simp only [State.input, updateChord_inputs]).symm
    · simp [running, mu] at h
      simp [running, h] at hrun
  · simp only [State.port, ports, Nat.le_refl]

end State

end Sys2Proof.Machine
end

section
/-!
SUPPORT. The shared operations of the road are orderly, and so is a request whose owner block is (R149, R150, R153).
-/

namespace Sys2Proof.Machine

open Sys2Proof

/-! ### The shared operations of the road -/

namespace State

variable (s : State)

theorem scanAll_orderly (rs : List Resource) : Orderly s (s.scanAll rs) := .of_reach (s.scanAll_frame rs) (by simp)
theorem scanFor_orderly (x : Sec) : Orderly s (s.scanFor x) := .of_reach (s.scan_frame _) (by simp)
theorem request_orderly (c : Conv) : Orderly s (s.request c) := .of_reach (s.request_frame c) (by simp)
theorem evalWatch_orderly (c : Conv) : Orderly s (s.evalWatch c) := .of_reach (s.evalWatch_frame c) (by simp)
theorem withdraw_orderly (c : Conv) : Orderly s (s.withdraw c) := .of_reach (s.withdraw_frame c) (by simp)
theorem releaseList_orderly (c : Conv) (rs : List Resource) : Orderly s (s.releaseList c rs) :=
  .of_reach (s.releaseList_frame c rs) (by simp)
theorem retarget_orderly (c : Conv) (st : ConvoyState) : Orderly s (s.retarget c st) :=
  .of_reach (s.retarget_frame c st) (by simp)
theorem recomputeTarget_orderly (c : Conv) : Orderly s (s.recomputeTarget c) :=
  .of_reach (s.recomputeTarget_frame c) (by simp)
theorem restartUnits_orderly (c : Conv) : Orderly s (s.restartUnits c) := .of_reach (s.restartUnits_frame c) (by simp)
theorem updateAllBranches_orderly (c : Conv) : Orderly s (s.updateAllBranches c) :=
  .of_reach (s.updateAllBranches_frame c) (by simp)
theorem checkArrived_orderly (c : Conv) : Orderly s (s.checkArrived c) := .of_reach (s.checkArrived_frame c) (by simp)
theorem toRest_orderly (x : Sec) : Orderly s (s.toRest x) := .of_eq rfl rfl rfl rfl rfl
theorem raise_orderly (n : Notice) (who : Audience) : Orderly s (s.raise n who) := .of_eq rfl rfl rfl rfl rfl
theorem modConvoy_orderly (c : Conv) (f : Convoy → Convoy) : Orderly s (s.modConvoy c f) := .of_eq rfl rfl rfl rfl rfl
theorem modRoad_orderly (c : Conv) (f : Road → Road) : Orderly s (s.modRoad c f) := .of_eq rfl rfl rfl rfl rfl
theorem modTrack_orderly (c : Conv) (f : Track → Track) : Orderly s (s.modTrack c f) := .of_eq rfl rfl rfl rfl rfl
theorem modSec_orderly (x : Sec) (f : Section → Section) : Orderly s (s.modSec x f) := .of_eq rfl rfl rfl rfl rfl
theorem setState_orderly (c : Conv) (st : ConvoyState) : Orderly s (s.setState c st) := s.modConvoy_orderly c _
theorem holdSec_orderly (c : Conv) (x : Sec) : Orderly s (s.holdSec c x) := s.modSec_orderly x _
theorem unitsDown_orderly (c : Conv) : Orderly s (s.unitsDown c) := s.modTrack_orderly c _
theorem cancelWatch_orderly (c : Conv) : Orderly s (s.cancelWatch c) := s.modRoad_orderly c _
theorem recomputePeriod_orderly : Orderly s s.recomputePeriod := .of_eq rfl rfl rfl rfl rfl

theorem modRds_orderly (f : Dispatcher → Dispatcher)
    (hf : ∀ r p, ((f r).auxQueues.nth p).length ≤ (r.auxQueues.nth p).length) : Orderly s (s.modRds f) :=
  .of_le rfl rfl rfl rfl (hf s.rds)

theorem modHls_orderly (f : HaltSupervisor → HaltSupervisor) (hf : ∀ h, (f h).chord = h.chord) :
    Orderly s (s.modHls f) := .of_eq rfl rfl rfl (hf _) rfl

theorem moveStock_orderly (x : Sec) (m n : Nat) : Orderly s (s.moveStock x m n) := .ite (s.modSec_orderly x _) (.refl s)

theorem activate_orderly (c : Conv) (a : Addr) : Orderly s (s.activate c a) := .of_eq rfl rfl rfl rfl rfl

/-- A truck that leaves its convoy takes its aux entries out of the queues (R141). -/
theorem retire_orderly (a : Addr) : Orderly s (s.retire a) := by
  have frame := s.retire_frame a
  refine .of_le (frame .mapUnit (by decide)) (frame .frontEnd (by decide)) (frame .consolePorts (by decide))
    (congrArg HaltSupervisor.chord (frame .haltSupervisor (by decide))) fun p => ?_
  cases h : s.usage a with
  | active c =>
    obtain ⟨-, -, -, aux⟩ := s.retire_spec a c h
    rw [aux]
    exact List.length_filter_le _ _
  | free => simp [retire, h]
  | retiring c => simp [retire, h]

/-! ### An update of one port -/

theorem modPort_orderly (p : Port) (f : PortState → PortState) (hp : ∀ q, (f q).placesTaken ≤ q.placesTaken)
    (hn : ∀ q : PortState, q.notices.length ≤ 16 → (f q).notices.length ≤ 16) : Orderly s (s.modPort p f) where
  map := id
  room := .modPort p f (hp _) (hn _)
  chord := id
  places q := by
    by_cases hq : q = p
    · subst hq
      rw [port_modPort_self]
      exact hp _
    · rw [port_modPort_ne _ _ hq]

/-! ### Answers: they say what is sent, and change nothing -/

@[simp] theorem accepted_state (payload : List Byte) : (s.accepted payload).state = s := rfl
@[simp] theorem convoyOk_state (c : Conv) : (s.convoyOk c).state = s := rfl
@[simp] theorem masked_state (mask : Nat) (payload : List Byte) : (s.masked mask payload).state = s := rfl

/-! ### The generic checks (R149, R150) -/

/-- A reply joins a queue in which the request has found a place (R149 step 1, R153). -/
theorem reply_keeps {s t : State} (h : Orderly s t) (p : Port) (hroom : (s.port p).placesTaken < 4) (kind tag : Byte)
    (a : Answer) : KeepsLaws s (t.reply p kind tag a) := by
  refine ⟨h.map, fun hs q => ?_, h.chord⟩
  obtain ⟨places, notices, aux⟩ := h.room hs q
  refine ⟨?_, ?_, aux⟩
  · by_cases hq : q = p
    · subst hq
      have taken : (t.port q).replies.length + (if (t.port q).reserved then 1 else 0) < 4 :=
        Nat.lt_of_le_of_lt (h.places q) hroom
      simp only [reply, port_modPort_self, PortState.placesTaken, List.length_append, List.length_singleton]
      omega
    · rwa [reply, port_modPort_ne _ _ hq]
  · by_cases hq : q = p
    · subst hq
      rwa [reply, port_modPort_self]
    · rwa [reply, port_modPort_ne _ _ hq]

theorem send_keeps {r : Result} (h : Orderly s r.state) (p : Port) (hroom : (s.port p).placesTaken < 4) (k : Kind)
    (tag : Byte) : KeepsLaws s (r.send p k tag) := by
  unfold Result.send
  split
  · exact reply_keeps h p hroom _ _ _
  · exact h.toKeepsLaws

/-- A request keeps what its owner block keeps with the reply, in a running part in which its port has room (R149). -/
theorem serve_keeps (p : Port) (k : Kind) (tag : Byte) (owner : State → Result)
    (h : ∀ u : State, u.running = true → (u.port p).placesTaken < 4 → KeepsLaws u ((owner u).send p k tag)) :
    StepKeeps s (s.serve p k tag owner) := by
  unfold serve
  split
  · rename_i hl
    refine .event ?_
    have heard : Orderly { s with eventNo := s.eventNo + 1 } (s.heard p) :=
      modPort_orderly _ p _ (fun _ => Nat.le_refl _) fun _ => id
    change KeepsLaws _ (if replyRoom ≤ ((s.heard p).port p).placesTaken then s.heard p
      else ((s.heard p).checked p k owner).send p k tag)
    split
    · exact heard.toKeepsLaws
    · rename_i hroom
      have hroom : ((s.heard p).port p).placesTaken < 4 := Nat.not_le.mp hroom
      refine heard.toKeepsLaws.trans ?_
      unfold checked
      split
      · exact send_keeps (s.heard p) (.refl _) p hroom k tag
      · split
        · exact send_keeps (s.heard p) (.refl _) p hroom k tag
        · rename_i hload _
          refine h _ ?_ hroom
          have hheld : s.mu.phase ≠ .held := by simpa using (Bool.and_eq_true_iff.mp hl).2
          have hload : s.mu.phase ≠ .loading := hload
          change s.running = true
          unfold running
          cases hph : s.mu.phase <;> simp_all
  · exact .refl s

/-- A request whose owner block is orderly. -/
theorem serve_orderly (p : Port) (k : Kind) (tag : Byte) (owner : State → Result)
    (h : ∀ u : State, u.running = true → Orderly u (owner u).state) : StepKeeps s (s.serve p k tag owner) :=
  s.serve_keeps p k tag owner fun u hrun hroom => send_keeps u (h u hrun) p hroom k tag

theorem noteConvoy_orderly (p : Port) (b : Byte) (c : Conv) : Orderly s (s.noteConvoy p b c) := by
  unfold noteConvoy
  exact .ite (.refl s) (s.modPort_orderly p _ (fun _ => Nat.le_refl _) fun _ => id)

theorem forConvoy_orderly (p : Port) (reach : Reach) (body : List Byte) (owner : State → Conv → List Byte → Result)
    (h : ∀ u c rest, Orderly u (owner u c rest).state) : Orderly s (s.forConvoy p reach body owner).state := by
  unfold forConvoy
  split
  · exact .refl s
  · rename_i b rest
    split
    · exact .refl s
    · rename_i c _
      have answered (v : State) (noted : Orderly s v) :
          Orderly s (if v.notOwner p c reach then v.refusal .notOwner else owner v c rest).state := by
        split
        · exact noted
        · exact noted.trans (h v c rest)
      exact answered _ (.ite (.refl s) (s.noteConvoy_orderly p b c))

theorem bare_orderly (rest : List Byte) (owner : State → Result) (h : Orderly s (owner s).state) :
    Orderly s (s.bare rest owner).state := by
  unfold bare
  split
  · exact h
  · exact .refl s

theorem mapRequest_orderly (f : Result) (h : Orderly s f.state) : Orderly s (s.mapRequest f).state := by
  unfold mapRequest
  split
  · exact .refl s
  · exact h

/-- A request that names a convoy and carries nothing after it. -/
theorem serve_bareConvoy (p : Port) (k : Kind) (tag : Byte) (reach : Reach) (body : List Byte)
    (owner : State → Conv → Result) (h : ∀ u c, Orderly u (owner u c).state) :
    StepKeeps s (s.serve p k tag fun s => s.forConvoy p reach body fun s c rest => s.bare rest fun s => owner s c) :=
  s.serve_orderly p k tag _ fun u _ => u.forConvoy_orderly p reach body _ fun v c rest =>
    v.bare_orderly rest (fun s => owner s c) (h v c)

end State

end Sys2Proof.Machine
end

section
/-!
SUPPORT. Every owner block is orderly: the map requests with the ranges of Table 1.5, the convoy requests, the requests
for road and those to the part.
-/

namespace Sys2Proof.Machine

open Sys2Proof

/-! ### Map ranges (R19, R23, R31) -/

theorem Profile.clamped_inRange (r : Profile) : 4 ≤ r.clamped.speedCap ∧ r.clamped.speedCap ≤ 63
    ∧ 1 ≤ r.clamped.approachCap ∧ r.clamped.approachCap ≤ 31 ∧ r.clamped.approachCap ≤ r.clamped.speedCap := by
  simp only [clamped, clampApproachCap, clampSpeedCap]
  omega

theorem Settings.clamped_inRange (t : Settings) : (∀ p, t.clamped.levels.nth p ≤ 3)
    ∧ (100 ≤ t.clamped.refresh ∧ t.clamped.refresh ≤ 1000 ∧ t.clamped.refresh % 10 = 0) ∧ t.clamped.threshold ≤ 15 := by
  refine ⟨fun p => ?_, ?_, Nat.min_le_right _ _⟩
  · rw [clamped, perPort_nth_map]
    exact Nat.min_le_right _ _
  · simp only [clamped, clampTo]
    omega

/-- Profiles and settings in their ranges make the map so. -/
theorem MapInRange.of_valid {s : State} (hp : ∀ p, (s.map.profiles.nth p).valid = true)
    (hs : s.map.settings.valid = true) : MapInRange s := by
  simp only [Profile.valid, Settings.valid, Bool.and_eq_true, decide_eq_true_eq, beq_iff_eq, List.all_eq_true] at hp hs
  obtain ⟨⟨⟨⟨⟨levels, chord⟩, low⟩, high⟩, ten⟩, threshold⟩ := hs
  refine ⟨fun p => ?_, fun p => levels p (by cases p <;> decide), chord, ⟨low, high, ten⟩, threshold⟩
  obtain ⟨⟨⟨⟨h1, h2⟩, h3⟩, h4⟩, h5⟩ := hp p
  exact ⟨h1, h2, h3, h4, h5⟩

theorem Profile.clamped_valid (r : Profile) : r.clamped.valid = true := by
  simpa [valid, and_assoc] using r.clamped_inRange

/-- Whatever the store holds, the map that a load installs has its profiles and settings in range (R22, R23). -/
theorem loaded_valid (store : StoreContents) (readable : Bool) :
    (∀ p, ((loaded store readable).1.profiles.nth p).valid = true)
      ∧ (loaded store readable).1.settings.valid = true := by
  have fallback : (∀ p, (LayoutMap.fallback.profiles.nth p).valid = true)
      ∧ LayoutMap.fallback.settings.valid = true := by decide
  unfold loaded
  split
  · exact fallback
  · split
    · exact fallback
    · split
      · rename_i m _ _ hm
        simp only [LayoutMap.valid, Bool.and_eq_true, List.all_eq_true] at hm
        exact ⟨fun p => hm.1.2 p (List.mem_finRange p), hm.2⟩
      · exact ⟨fun p => by simp only [LayoutMap.repaired, tab_nth_map, Profile.clamped_valid],
          fallback.2⟩

namespace State

variable (s : State)

/-! ### Map requests (R25 to R33) -/

/-- A new map that keeps the settings, and the ranges. -/
theorem setMap_orderly {m : LayoutMap} (hs : m.settings = s.map.settings)
    (hm : MapInRange s → MapInRange (s.setMap m)) : Orderly s (s.setMap m) :=
  ⟨⟨hm, id, .of_eq hs (fun _ => rfl) rfl rfl rfl⟩, fun _ => Nat.le_refl _⟩

theorem readMap_orderly (body : List Byte) : Orderly s (s.readMap body).state := by
  refine s.mapRequest_orderly _ ?_
  split <;> exact .refl s

theorem replaceSection_orderly (x : Sec) (r : SectionRec) : Orderly s (s.replaceSection x r) :=
  have taken : Orderly s (s.setMap { s.map with sections := s.map.sections.put x r }) :=
    s.setMap_orderly rfl (.of_eq rfl rfl)
  .ite taken (taken.trans (modSec_orderly _ x _))

theorem editSection_orderly (body : List Byte) : Orderly s (s.editSection body).state := by
  refine s.mapRequest_orderly _ ?_
  split
  · exact .refl s
  · split
    · exact s.replaceSection_orderly _ _
    · exact .refl s

/-- A profile clamped to its ranges is put into the map (R19). -/
theorem setProfile_orderly (p : ProfileNo) (r : Profile) :
    Orderly s (s.setMap { s.map with profiles := s.map.profiles.put p r.clamped }) := by
  refine s.setMap_orderly rfl fun ⟨profiles, rest⟩ => ⟨fun q => ?_, rest⟩
  by_cases hq : q = p
  · subst hq
    simpa only [map, setMap_mu, tab_nth_put_self] using r.clamped_inRange
  · simpa only [map, setMap_mu, tab_nth_put_ne _ _ hq] using profiles q

theorem editZone_orderly (body : List Byte) : Orderly s (s.editZone body).state := by
  refine s.mapRequest_orderly _ ?_
  split
  · exact .refl s
  · split
    · exact .refl s
    · exact s.setProfile_orderly _ _

/-- An input that starts is not accepted active, and nothing but the input changes (R35, R39, R48). -/
theorem startInput_spec (d : Inp) : ∃ c timer, s.startInput d = s.setCond d c timer ∧ c.accepted = false := by
  unfold startInput enterIdle idleInactive
  split
  · split
    · exact ⟨_, _, rfl, rfl⟩
    · split <;> exact ⟨_, _, rfl, rfl⟩
  · exact ⟨_, _, rfl, rfl⟩

/-- What no change of an input's conditioning touches, the start of inputs keeps. -/
theorem startInputs_keep {β : Type} (g : State → β) (hg : ∀ (t : State) d c timer, g (t.setCond d c timer) = g t)
    (ds : List Inp) : g (s.forEach ds startInput) = g s :=
  forEach_keeps g startInput (fun t d => by
    obtain ⟨c, timer, h, -⟩ := t.startInput_spec d
    rw [h, hg]) s ds

theorem startInputs_mu (ds : List Inp) : (s.forEach ds startInput).mu = s.mu :=
  s.startInputs_keep State.mu (fun _ _ _ _ => rfl) ds

theorem startInputs_ports (ds : List Inp) : (s.forEach ds startInput).ports = s.ports :=
  s.startInputs_keep State.ports (fun _ _ _ _ => rfl) ds

theorem startInputs_rds (ds : List Inp) : (s.forEach ds startInput).rds = s.rds :=
  s.startInputs_keep State.rds (fun _ _ _ _ => rfl) ds

theorem startInputs_hls (ds : List Inp) : (s.forEach ds startInput).hls = s.hls :=
  s.startInputs_keep State.hls (fun _ _ _ _ => rfl) ds

theorem startInputs_chord (ds : List Inp) : (s.forEach ds startInput).dfe.chord = s.dfe.chord :=
  s.startInputs_keep (fun u => u.dfe.chord) (fun _ _ _ _ => rfl) ds

/-- After the start of the inputs of a list none of them is accepted active. -/
theorem startInputs_unaccepted (ds : List Inp) (d : Inp) (h : d ∈ ds ∨ (s.input d).cond.accepted = false) :
    ((s.forEach ds startInput).input d).cond.accepted = false := by
  induction ds generalizing s with
  | nil => exact h.resolve_left (by simp)
  | cons e ds ih =>
    refine ih _ ?_
    obtain ⟨c, timer, started, hc⟩ := s.startInput_spec e
    rw [started]
    by_cases he : d = e
    · subst he
      exact .inr (by rw [setCond, input_modInput_self]; exact hc)
    · rw [setCond, input_modInput_ne _ _ he]
      exact h.imp (fun hd => (List.mem_cons.mp hd).resolve_left he) id

theorem setDetector_orderly (hrun : s.running = true) (d : Inp) (t : DetectorSetting) (code : Fin 8) :
    Orderly s (s.setDetector d t code) := by
  unfold setDetector restartInputs
  refine updateChord_orderly ?_ (startInputs_hls _ _) (startInputs_chord _ _) (startInputs_ports _ _) ?_ fun hs => ?_
  · rwa [running, startInputs_mu]
  · rw [startInputs_rds]
    rfl
  · exact .of_eq (by rw [map, startInputs_mu]; rfl) (by rw [map, startInputs_mu]; rfl) hs

theorem editDetector_orderly (hrun : s.running = true) (body : List Byte) : Orderly s (s.editDetector body).state := by
  refine s.mapRequest_orderly _ ?_
  split
  · exact .refl s
  · exact s.setDetector_orderly hrun _ _ _

theorem editGroup_orderly (body : List Byte) : Orderly s (s.editGroup body).state := by
  refine s.mapRequest_orderly _ ?_
  split
  · exact .refl s
  · split
    · exact s.setMap_orderly rfl (.of_eq rfl rfl)
    · exact .refl s

/-- Settings clamped to their ranges, of a chord selection that exists, are taken (R31, R47). -/
theorem setSettings_orderly (hrun : s.running = true) (t : Settings) (hchord : t.chord ≤ 3) :
    Orderly s (s.setSettings t.clamped) := by
  have taken : MapInRange s → MapInRange (s.setMap { s.map with settings := t.clamped }) := fun ⟨profiles, _⟩ =>
    have ⟨levels, refresh, threshold⟩ := t.clamped_inRange
    ⟨profiles, levels, hchord, refresh, threshold⟩
  have chord : Orderly s (s.setMap { s.map with settings := t.clamped }).updateChord :=
    updateChord_orderly hrun rfl rfl rfl rfl taken
  have compared := chord.trans (compareSupply_orderly _)
  exact .ite compared (compared.trans (recomputePeriod_orderly _))

theorem editSettings_orderly (hrun : s.running = true) (body : List Byte) : Orderly s (s.editSettings body).state := by
  refine s.mapRequest_orderly _ ?_
  split
  · exact .refl s
  · rename_i t _
    split
    · rename_i ht
      simp only [LayoutMap.takesSettings, Bool.and_eq_true, decide_eq_true_eq] at ht
      exact s.setSettings_orderly hrun t ht.1.1
    · exact .refl s

/-- A commit reserves the place that its request found, and queues no reply (R32). -/
theorem beginCommit_keeps (hrun : s.running = true) (p : Port) (tag : Byte) (hroom : (s.port p).placesTaken < 4) :
    KeepsLaws s (s.beginCommit p tag) where
  map := id
  room h q := by
    obtain ⟨places, notices, aux⟩ := h q
    refine ⟨?_, ?_, aux⟩
    · by_cases hq : q = p
      · subst hq
        have : (s.port q).replies.length < 4 := Nat.lt_of_le_of_lt (Nat.le_add_right _ _) hroom
        simp only [beginCommit, port_modPort_self, port_modMu, PortState.placesTaken, if_true]
        omega
      · rwa [beginCommit, port_modPort_ne _ _ hq, port_modMu]
    · by_cases hq : q = p
      · subst hq
        rwa [beginCommit, port_modPort_self, port_modMu]
      · rwa [beginCommit, port_modPort_ne _ _ hq, port_modMu]
  chord := .of_eq rfl (fun _ => rfl) rfl rfl hrun.symm

theorem commitMap_keeps (hrun : s.running = true) (p : Port) (hroom : (s.port p).placesTaken < 4) (k : Kind)
    (tag : Byte) (body : List Byte) : KeepsLaws s ((s.commitMap p tag body).send p k tag) := by
  unfold commitMap mapRequest
  split
  · exact s.send_keeps (.refl s) p hroom k tag
  · split
    · exact s.beginCommit_keeps hrun p tag hroom
    · exact s.send_keeps (.refl s) p hroom k tag

/-- The reply of a commit takes the place that was reserved for it (R32). -/
theorem commitReply_orderly (p : Port) (tag : Byte) (code : ReplyCode) : Orderly s (s.commitReply p tag code) := by
  unfold commitReply
  split
  · rename_i hres
    have h : Orderly s (s.modPort p fun q => { q with
        reserved := false, replies := q.replies ++ [replyMessage 0x07 tag ⟨code, []⟩] }) := by
      have taken (q : Port) : ((s.modPort p fun q => { q with
          reserved := false, replies := q.replies ++ [replyMessage 0x07 tag ⟨code, []⟩] }).port q).placesTaken
            = (s.port q).placesTaken := by
        by_cases hq : q = p
        · subst hq
          simp [PortState.placesTaken, hres]
        · rw [port_modPort_ne _ _ hq]
      refine ⟨⟨id, .of_ports rfl (fun q => (taken q).le) fun q hn => ?_, id⟩, fun q => (taken q).le⟩
      by_cases hq : q = p
      · subst hq
        rwa [port_modPort_self]
      · rwa [port_modPort_ne _ _ hq]
    simpa only [reply, modPort, perPort_put_put, perPort_nth_put_self] using h
  · exact .refl s

/-- A commit that ends gives its reserved place to its reply (R32). -/
theorem finishCommit_keeps (hc : s.mu.phase = .committing) (k : Commit) (back : StoreContents) :
    KeepsLaws s (s.finishCommit k back) := by
  have hrun : s.running = true := by simp [running, hc]
  have ended (m : MapUnit) (hm : m.map = s.mu.map) (hp : m.phase = .ready) : KeepsLaws s (s.modMu fun _ => m) :=
    ⟨.of_eq (by simp [map, hm]) (by simp [map, hm]), id,
      .of_eq (by simp [map, hm]) (fun _ => rfl) rfl rfl (by rw [hrun]; simp [running, hp])⟩
  unfold finishCommit
  refine (ended { s.mu with
    phase := .ready, commit := none, store := back, mapInvalid := s.mu.mapInvalid && !readBackAgrees k.snapshot back }
    rfl rfl).trans ?_
  exact (commitReply_orderly _ _ _ _).toKeepsLaws

/-! ### Convoy requests (R55 to R69) -/

theorem orphan_orderly (c : Conv) : Orderly s (s.orphan c) := by
  unfold orphan
  split
  · exact (s.modConvoy_orderly c _).trans (raise_orderly _ _ _)
  · exact s.modConvoy_orderly c _

theorem claim_orderly (p : Port) (c : Conv) : Orderly s (s.claim p c).state := by
  unfold claim
  split
  · rw [accepted_state]
    exact s.modConvoy_orderly c _
  · exact .refl s

theorem releaseClaim_orderly (p : Port) (c : Conv) : Orderly s (s.releaseClaim p c).state := by
  unfold releaseClaim
  split
  · exact s.orphan_orderly c
  · exact .refl s

theorem formConvoy_orderly (c : Conv) (x : Sec) (ms : List Member) : Orderly s (s.formConvoy c x ms) := by
  unfold formConvoy
  refine Orderly.trans ?_ (recomputePeriod_orderly _)
  refine Orderly.trans ?_ (.forEach (fun t a => t.activate_orderly c a) _ _)
  refine Orderly.trans (.trans ?_ (modTrack_orderly _ c _)) (unitsDown_orderly _ c)
  refine Orderly.trans ?_ (moveStock_orderly _ x 0 _)
  exact ((s.modConvoy_orderly c _).trans (holdSec_orderly _ c x)).trans (modRoad_orderly _ c _)

theorem formIn_orderly (c : Conv) (x : Sec) (ms : List Member) : Orderly s (s.formIn c x ms).state := by
  unfold formIn
  split
  · exact .refl s
  split
  · exact .refl s
  split
  · exact .refl s
  split
  · exact .refl s
  split
  · exact .refl s
  split
  · exact .refl s
  · exact s.formConvoy_orderly c x ms

theorem form_orderly (p : Port) (c : Conv) (rest : List Byte) : Orderly s (s.form p c rest).state := by
  unfold form
  split
  · split
    · exact .refl s
    · split
      · split
        · exact .refl s
        · exact s.formIn_orderly c _ _
      · exact .refl s
  · exact .refl s

theorem reformConvoy_orderly (c : Conv) (x : Sec) (ms : List Member) : Orderly s (s.reformConvoy c x ms) := by
  unfold reformConvoy
  refine Orderly.trans ?_ (recomputePeriod_orderly _)
  refine Orderly.trans (.trans ?_ (moveStock_orderly _ x _ _)) (unitsDown_orderly _ c)
  refine Orderly.trans ?_ (modConvoy_orderly _ c _)
  exact (Orderly.forEach retire_orderly _ _).trans (.forEach (fun t a => t.activate_orderly c a) _ _)

theorem reformWith_orderly (c : Conv) (ms : List Member) : Orderly s (s.reformWith c ms).state := by
  unfold reformWith
  split
  · exact .refl s
  split
  · exact .refl s
  split
  · exact .refl s
  split
  · exact .refl s
  split
  · exact .refl s
  · exact s.reformConvoy_orderly c _ ms

theorem reform_orderly (c : Conv) (rest : List Byte) : Orderly s (s.reform c rest).state := by
  unfold reform
  split
  · exact .refl s
  split
  · exact .refl s
  · exact s.reformWith_orderly c _

theorem stockFrom_orderly (c : Conv) : Orderly s (s.stockFrom c) := by
  unfold stockFrom
  split
  · exact .ite (s.moveStock_orderly _ _ _) (.refl s)
  · exact .refl s

theorem disbandConvoy_orderly (c : Conv) : Orderly s (s.disbandConvoy c) := by
  unfold disbandConvoy
  refine Orderly.trans ?_ (scanAll_orderly _ _)
  refine Orderly.trans ?_ (recomputePeriod_orderly _)
  refine Orderly.trans ?_ (modConvoy_orderly _ c _)
  refine Orderly.trans ?_ (.forEach retire_orderly _ _)
  refine Orderly.trans (.trans ?_ (modRoad_orderly _ c _)) (modTrack_orderly _ c _)
  refine Orderly.trans ?_ (releaseList_orderly _ c _)
  exact ((s.stockFrom_orderly c).trans (withdraw_orderly _ c)).trans (cancelWatch_orderly _ c)

theorem disband_orderly (c : Conv) : Orderly s (s.disband c).state := by
  unfold disband
  split
  · exact s.disbandConvoy_orderly c
  · exact .refl s

theorem storeParams_orderly (c : Conv) (v : Params × Thresholds) : Orderly s (s.storeParams c v) := by
  unfold storeParams
  exact (s.modConvoy_orderly c _).trans (.of_reach (vmaxChanged_frame _ c) (by simp))

theorem setParams_orderly (c : Conv) (rest : List Byte) : Orderly s (s.setParams c rest).state := by
  unfold setParams
  split
  · exact .refl s
  split
  · exact .refl s
  · rw [masked_state]
    exact s.storeParams_orderly c _

theorem holdConvoy_orderly (c : Conv) (r : Resume) : Orderly s (s.holdConvoy c r) := by
  unfold holdConvoy
  exact ((s.modConvoy_orderly c _).trans (.of_reach (hardStopAll_frame _ c) (by simp))).trans (unitsDown_orderly _ c)

theorem hold_orderly (c : Conv) : Orderly s (s.hold c).state := by
  unfold hold
  split
  · exact s.holdConvoy_orderly c _
  · exact .refl s

theorem unholdRolling_orderly (c : Conv) : Orderly s (s.unholdRolling c) := by
  unfold unholdRolling
  refine Orderly.trans ?_ (restartUnits_orderly _ c)
  refine Orderly.trans ?_ (.ite ((setState_orderly _ c _).trans (raise_orderly _ _ _)) (setState_orderly _ c _))
  exact ((s.request_orderly c).trans (retarget_orderly _ c _)).trans (modConvoy_orderly _ c _)

theorem unholdArriving_orderly (c : Conv) : Orderly s (s.unholdArriving c) := by
  unfold unholdArriving
  refine Orderly.trans (.trans ?_ (restartUnits_orderly _ c)) (checkArrived_orderly _ c)
  exact ((s.request_orderly c).trans (retarget_orderly _ c _)).trans (modConvoy_orderly _ c _)

theorem unhold_orderly (c : Conv) : Orderly s (s.unhold c).state := by
  unfold unhold unholdConvoy
  split
  · exact .refl s
  · rw [convoyOk_state]
    split
    · exact s.unholdArriving_orderly c
    · exact s.unholdRolling_orderly c
    · exact s.unholdRolling_orderly c

theorem clearFaultOf_orderly (c : Conv) : Orderly s (s.clearFaultOf c) := by
  unfold clearFaultOf
  refine Orderly.trans (.trans ?_ (evalWatch_orderly _ c)) (scanAll_orderly _ _)
  refine Orderly.trans ?_ ((modTrack_orderly _ c _).trans (modTrack_orderly _ c _))
  refine Orderly.trans (.trans ?_ (releaseList_orderly _ c _)) (modRoad_orderly _ c _)
  exact ((s.modConvoy_orderly c _).trans (withdraw_orderly _ c)).trans (cancelWatch_orderly _ c)

theorem clearFault_orderly (p : Port) (c : Conv) : Orderly s (s.clearFault p c).state := by
  unfold clearFault
  split
  · exact .refl s
  split
  · exact .refl s
  · exact s.clearFaultOf_orderly c

/-! ### Requests for road (R74 to R95) -/

theorem updateEntry_orderly (c : Conv) (r : Resource) (k : Nat) (x : Sec) : Orderly s (s.updateEntry c r k x) :=
  .of_reach (s.modQueue_frame r _) (congrArg Dispatcher.auxQueues (modQueue_rds s r _))

theorem leaveArrived_orderly (c : Conv) : Orderly s (s.leaveArrived c) := .ite (s.setState_orderly c _) (.refl s)

theorem clearRefusal_orderly (c : Conv) : Orderly s (s.clearRefusal c) := .ite (s.modRoad_orderly c _) (.refl s)

theorem installRoute_orderly (c : Conv) (new : List Sec) (rs : List Resource) (p : Nat) :
    Orderly s (s.installRoute c new rs p) := by
  unfold installRoute
  refine Orderly.trans (.trans ?_ (updateAllBranches_orderly _ c)) (evalWatch_orderly _ c)
  exact ((s.releaseList_orderly c _).trans (modRoad_orderly _ c _)).trans (modTrack_orderly _ c _)

theorem requestIfWaiting_orderly (c : Conv) : Orderly s (s.requestIfWaiting c) :=
  .ite (s.request_orderly c) (.refl s)

theorem finishRoute_orderly (c : Conv) (rs : List Resource) : Orderly s (s.finishRoute c rs) := by
  unfold finishRoute
  split
  · exact ((s.updateEntry_orderly c _ _ _).trans (leaveArrived_orderly _ c)).trans (scanAll_orderly _ _)
  · refine Orderly.trans ?_ (requestIfWaiting_orderly _ c)
    exact ((s.withdraw_orderly c).trans (leaveArrived_orderly _ c)).trans (scanAll_orderly _ _)

theorem setRoute_orderly (c : Conv) (new : List Sec) : Orderly s (s.setRoute c new) := by
  unfold setRoute
  exact (s.installRoute_orderly c new _ _).trans (finishRoute_orderly _ c _)

theorem routeRequest_orderly (p : Port) (c : Conv) (rest : List Byte) : Orderly s (s.routeRequest p c rest).state := by
  unfold routeRequest routeWith
  split
  · split
    · exact .refl s
    split
    · exact .refl s
    split
    · exact .refl s
    · exact .refl s
    · split
      · exact .refl s
      · rw [convoyOk_state]
        exact s.setRoute_orderly c _
  · exact .refl s

theorem start_orderly (c : Conv) : Orderly s (s.start c).state := by
  unfold start
  split
  · exact .refl s
  · rw [convoyOk_state]
    unfold startConvoy
    refine Orderly.trans (.trans (.trans ?_ (request_orderly _ c)) (recomputeTarget_orderly _ c))
      (restartUnits_orderly _ c)
    exact ((s.setState_orderly c _).trans (updateAllBranches_orderly _ c)).trans (evalWatch_orderly _ c)

theorem retry_orderly (c : Conv) : Orderly s (s.retry c).state := by
  unfold retry
  split
  · exact (s.clearRefusal_orderly c).trans (request_orderly _ c)
  · exact .refl s

theorem setBarFlag_orderly (x : Sec) (b : Bool) : Orderly s (s.setBarFlag x b) := s.setMap_orderly rfl (.of_eq rfl rfl)

theorem barSection_orderly (body : List Byte) : Orderly s (s.barSection body).state := by
  unfold barSection
  split
  · exact .refl s
  split
  · rw [accepted_state]
    exact (s.setBarFlag_orderly _ true).trans (modSec_orderly _ _ _)
  · exact .refl s

theorem unbarSection_orderly (body : List Byte) : Orderly s (s.unbarSection body).state := by
  unfold unbarSection
  split
  · exact .refl s
  split
  · exact .refl s
  split
  · exact .refl s
  · rw [accepted_state]
    exact ((s.setBarFlag_orderly _ false).trans (toRest_orderly _ _)).trans (scanFor_orderly _ _)

theorem clearSection_orderly (body : List Byte) : Orderly s (s.clearSection body).state := by
  unfold clearSection
  split
  · exact .refl s
  split
  · rw [accepted_state]
    exact (s.toRest_orderly _).trans (scanFor_orderly _ _)
  · exact .refl s

theorem putStock_orderly (x : Sec) (n : Nat) : Orderly s (s.putStock x n) := by
  unfold putStock
  refine Orderly.trans (s.modSec_orderly x fun q => { q with stock := n }) ?_
  dsimp only
  split
  · exact toRest_orderly _ x
  · exact .ite ((toRest_orderly _ x).trans (scanFor_orderly _ x)) (.refl _)
  all_goals exact .refl _

theorem setStock_orderly (body : List Byte) : Orderly s (s.setStock body).state := by
  unfold setStock
  split
  · exact .refl s
  split
  · exact s.putStock_orderly _ _
  · exact .refl s

theorem querySection_orderly (body : List Byte) : Orderly s (s.querySection body).state := by
  unfold querySection
  split <;> exact .refl s

/-! ### Requests to the part (R44, R140, R152, R162 to R164) -/

theorem clearSeen_orderly (p : Port) : Orderly s (s.clearSeen p) :=
  ⟨⟨id, id, id⟩, fun _ => Nat.le_refl _⟩

theorem queryDetectors_orderly (p : Port) (body : List Byte) : Orderly s (s.queryDetectors p body).state := by
  unfold queryDetectors
  split
  · exact s.clearSeen_orderly p
  · exact .refl s

/-- The lengths of the aux queues after the queue of one port was replaced. -/
theorem auxQueue_put (f : Dispatcher → Dispatcher) (p : Port) (l : List AuxEntry)
    (hf : (f s.rds).auxQueues = s.rds.auxQueues.put p l) (q : Port) :
    (s.modRds f).auxQueue q = if q = p then l else s.auxQueue q := by
  rw [auxQueue, modRds_rds, hf]
  exact perPort_nth_put _ _ _ _

/-- An aux entry joins a queue that has room (R140 check 5, R141). -/
theorem auxWith_orderly (p : Port) (e : AuxEntry) : Orderly s (s.auxWith p e).state := by
  unfold auxWith
  split
  · exact .refl s
  split
  · exact .refl s
  split
  · exact .refl s
  split
  · exact .refl s
  · rename_i hroom
    refine ⟨⟨id, fun h q => ?_, id⟩, fun _ => Nat.le_refl _⟩
    obtain ⟨places, notices, aux⟩ := h q
    refine ⟨places, notices, ?_⟩
    dsimp only [accepted_state]
    rw [s.auxQueue_put _ p (s.auxQueue p ++ [e]) rfl]
    split
    · have : (s.auxQueue p).length < 8 := Nat.not_le.mp hroom
      simpa using this
    · exact aux

theorem auxRequest_orderly (p : Port) (body : List Byte) : Orderly s (s.auxRequest p body).state := by
  unfold auxRequest
  split
  · exact .refl s
  · exact s.auxWith_orderly p _

theorem setNotifyOf_orderly (p : Port) (on : Bool) (level : Nat) : Orderly s (s.setNotifyOf p on level) :=
  have set := s.modPort_orderly p (fun q => { q with notifyOn := on, notifyLevel := level }) (fun _ => Nat.le_refl _)
    fun _ => id
  set.trans
    (.forEach (fun t n => t.modPort_orderly p (fun q => q.notify n) (fun q => (q.notify_placesTaken n).le)
      fun q => q.notify_notices n) _ _)

theorem setNotify_orderly (p : Port) (body : List Byte) : Orderly s (s.setNotify p body).state := by
  unfold setNotify
  split
  · exact .refl s
  · exact s.setNotifyOf_orderly p _ _

theorem allStop_orderly (body : List Byte) : Orderly s (s.allStop body).state := by
  unfold allStop
  split
  · exact s.causePresent_orderly .request (by decide)
  · exact .refl s

theorem resumeAll_orderly (body : List Byte) : Orderly s (s.resumeAll body).state := by
  unfold resumeAll
  split
  · exact .refl s
  split
  · exact .refl s
  · rw [accepted_state]
    unfold resumeLayout
    refine Orderly.trans (.trans (.trans ?_ (scanAll_orderly _ _)) (.of_reach (restartAll_frame _) (by simp)))
      (raise_orderly _ _ _)
    exact s.modHls_orderly _ fun _ => rfl

theorem resetConvoys_orderly : Orderly s s.resetConvoys := by
  unfold resetConvoys
  have blank (t : State) : Orderly t
      { t with cvt := { t.cvt with convoys := Tab.all 12 Convoy.blank }, tracks := Tab.all 12 Track.blank } :=
    .of_eq rfl rfl rfl rfl rfl
  exact (Orderly.forEach retire_orderly s allTrucks).trans (blank _)

theorem afterLayoutReset_chord (h : HaltSupervisor) : h.afterLayoutReset.chord = h.chord := by
  unfold HaltSupervisor.afterLayoutReset
  split <;> rfl

theorem resetInterlock_orderly : Orderly s s.resetInterlock := by
  unfold resetInterlock
  exact .of_eq rfl rfl rfl rfl rfl

theorem resetRadio_orderly : Orderly s s.resetRadio := by
  unfold resetRadio
  refine Orderly.trans (s.modRds_orderly _ fun r p => ?_) (recomputePeriod_orderly _)
  rw [perPort_nth_all]
  exact Nat.zero_le _

theorem forgetConvoys_orderly : Orderly s { s with ports := s.ports.map PortState.forgetConvoy } := by
  refine ⟨⟨id, .of_ports rfl (fun p => ?_) (fun p => ?_), id⟩, fun p => ?_⟩ <;> simp only [port, perPort_nth_map]
  · exact Nat.le_refl _
  · exact id
  · exact Nat.le_refl _

theorem resetLayout_orderly : Orderly s s.resetLayout := by
  unfold resetLayout
  refine Orderly.trans ?_ (raise_orderly _ _ _)
  refine Orderly.trans (.trans ?_ (forgetConvoys_orderly _)) (modHls_orderly _ _ afterLayoutReset_chord)
  exact (s.resetConvoys_orderly.trans (resetInterlock_orderly _)).trans (resetRadio_orderly _)

theorem layoutReset_orderly (body : List Byte) : Orderly s (s.layoutReset body).state := by
  unfold layoutReset
  split
  · exact s.resetLayout_orderly
  · exact .refl s

end State

end Sys2Proof.Machine
end

section
/-!
SUPPORT. The events that no request brings: power, ports, lines, timers, the radio slot and the transmitters.
-/

namespace Sys2Proof.Machine

open Sys2Proof

/-! ### Power (R20 to R24, R166) -/

/-- A selection other than 0 has a chord input (R12). -/
theorem chordInputs_ne_nil {n : Nat} (h : n ≠ 0) : (60 : Inp) ∈ chordInputs n := by
  unfold chordInputs
  split
  · contradiction
  all_goals simp

namespace State

variable (s : State)

/-- Without an accepted input there is no chord (R46). -/
theorem chordComplete_unaccepted (h : ∀ d, (s.input d).cond.accepted = false) : s.chordComplete = false := by
  by_cases hs : s.map.settings.chord = 0
  · simp [chordComplete, hs]
  · have : s.chordSet.all (fun d => (s.input d).cond.accepted) = false :=
      List.all_eq_false.mpr ⟨60, chordInputs_ne_nil hs, by simp [h]⟩
    rw [chordComplete, this, Bool.and_false]

/-- A power reset empties every queue and releases the chord; the working map stays (R20, R48, R155). -/
theorem powerReset_orderly : Orderly s s.powerReset where
  map := id
  room h p := by
    have port : s.powerReset.port p = .fresh (s.port p).present presentMs false := perPort_nth_map _ _ _
    have aux : s.powerReset.auxQueue p = [] := perPort_nth_all _ _
    rw [port, aux]
    exact ⟨Nat.zero_le _, Nat.zero_le _, Nat.zero_le _⟩
  chord _ := by
    refine ⟨(chordComplete_unaccepted _ fun d => ?_).symm, rfl, fun _ => rfl⟩
    have : s.powerReset.input d = ⟨(s.input d).high, .disabled, none⟩ := tab_nth_make _ _
    rw [this]
    rfl
  places p := by
    have port : s.powerReset.port p = .fresh (s.port p).present presentMs false := perPort_nth_map _ _ _
    rw [port]
    exact Nat.zero_le _

theorem resetLow_orderly : Orderly s s.resetLow := s.powerReset_orderly.trans (.of_eq rfl rfl rfl rfl rfl)

theorem enterBrownOut_orderly (mv : Nat) : Orderly s (s.enterBrownOut mv) :=
  s.powerReset_orderly.trans (.of_eq rfl rfl rfl rfl rfl)

theorem endHold_orderly : Orderly s s.endHold := by
  unfold endHold
  split
  · rename_i h
    have hr : s.running = false := by simp [running, h.1]
    exact ⟨⟨id, id, .of_eq rfl (fun _ => rfl) rfl rfl hr.symm⟩, fun _ => Nat.le_refl _⟩
  · exact .refl s

theorem supplyLine_orderly (mv : Nat) : Orderly s (s.supplyLine mv) := .of_eq rfl rfl rfl rfl rfl

theorem release_orderly (mv : Nat) : Orderly s (s.release mv) := by
  have raised : Orderly s { s.supplyLine mv with pins := { (s.supplyLine mv).pins with resetn := true } } :=
    .of_eq rfl rfl rfl rfl rfl
  exact raised.trans (endHold_orderly _)

theorem supplyAt_orderly (mv : Nat) : Orderly s (s.supplyAt mv) := by
  unfold supplyAt
  exact (s.supplyLine_orderly mv).trans (.ite (compareSupply_orderly _) (endHold_orderly _))

theorem raiseMapInvalid_orderly (who : Audience) : Orderly s (s.raiseMapInvalid who) :=
  .ite (s.raise_orderly _ who) (.refl s)

/-- The state in which the inputs of a loaded map start: the map installed, the road, the radio and the ramp reset. -/
def loadedWith (m : LayoutMap) (stage : Nat) : State :=
  let s := s.modMu fun u => u.install m stage
  let s := { s with sil := Interlock.ofMap m, hwg := { s.hwg with tickInMs := 50 } }
  (s.modRds fun r => { r with slotInMs := 0 }).recomputePeriod

theorem loadedWith_ports (m : LayoutMap) (stage : Nat) : (s.loadedWith m stage).ports = s.ports := rfl

theorem loadedWith_chord (m : LayoutMap) (stage : Nat) : (s.loadedWith m stage).dfe.chord = s.dfe.chord := rfl

theorem loadedWith_hls (m : LayoutMap) (stage : Nat) : (s.loadedWith m stage).hls = s.hls := rfl

theorem loadedWith_auxQueues (m : LayoutMap) (stage : Nat) :
    (s.loadedWith m stage).rds.auxQueues = s.rds.auxQueues := by simp [loadedWith]

theorem startWith_eq (m : LayoutMap) (stage : Nat) :
    s.startWith m stage = ((s.loadedWith m stage).forEach (List.finRange 64) startInput).compareLow := by
  simp only [startWith, loadedWith]

/-- At the end of a load no input is accepted active, so that the chord stays RELEASED (R35, R48). -/
theorem startWith_keeps (hrun : s.running = false) (m : LayoutMap) (stage : Nat)
    (hp : ∀ p, (m.profiles.nth p).valid = true) (hs : m.settings.valid = true) : KeepsLaws s (s.startWith m stage) := by
  have unaccepted (d : Inp) :=
    startInputs_unaccepted (s.loadedWith m stage) (List.finRange 64) d (.inl (List.mem_finRange d))
  have chord := (startInputs_chord (s.loadedWith m stage) (List.finRange 64)).trans (s.loadedWith_chord m stage)
  have hls := (startInputs_hls (s.loadedWith m stage) (List.finRange 64)).trans (s.loadedWith_hls m stage)
  have ports := (startInputs_ports (s.loadedWith m stage) (List.finRange 64)).trans (s.loadedWith_ports m stage)
  have rds := startInputs_rds (s.loadedWith m stage) (List.finRange 64)
  have installed : ((s.loadedWith m stage).forEach (List.finRange 64) startInput).map = m := by
    rw [map, startInputs_mu]
    rfl
  rw [startWith_eq]
  generalize (s.loadedWith m stage).forEach (List.finRange 64) startInput = u at *
  have started : KeepsLaws s u := by
    refine ⟨fun _ => .of_valid (by rwa [installed]) (by rwa [installed]), .of_eq ports ?_,
      fun ⟨_, agree, released⟩ => ?_⟩
    · rw [rds, loadedWith_auxQueues]
    · have off := chord.trans (released hrun)
      exact ⟨off.trans (u.chordComplete_unaccepted unaccepted).symm, by rw [hls, agree, chord], fun _ => off⟩
  have frame := u.compareLow_frame
  exact started.trans (Orderly.of_eq (frame .mapUnit (by decide)) (frame .frontEnd (by decide))
    (frame .consolePorts (by decide)) u.compareLow_chord (by simp)).toKeepsLaws

theorem finishLoad_keeps (hrun : s.running = false) (readable : Bool) : KeepsLaws s (s.finishLoad readable) :=
  have ⟨profiles, settings⟩ := loaded_valid s.mu.store readable
  (s.startWith_keeps hrun _ _ profiles settings).trans (raiseMapInvalid_orderly _ _).toKeepsLaws

/-! ### Ports (R146, R148, R155) -/

theorem clearAux_orderly (p : Port) : Orderly s (s.clearAux p) := by
  refine s.modRds_orderly _ fun r q => ?_
  by_cases hq : q = p
  · subst hq
    rw [perPort_nth_put_self]
    exact Nat.zero_le _
  · rw [perPort_nth_put_ne _ _ hq]

theorem attachPort_orderly (p : Port) : Orderly s (s.attachPort p) :=
  have attached := s.modPort_orderly p (fun q => .fresh q.present q.watchMs true) (fun _ => Nat.zero_le _)
    fun _ _ => Nat.zero_le _
  ((attached.trans (clearSeen_orderly _ p)).trans (clearAux_orderly _ p)).trans (raiseMapInvalid_orderly _ _)

theorem detachPort_orderly (p : Port) : Orderly s (s.detachPort p) :=
  have detached := s.modPort_orderly p PortState.detached (fun _ => Nat.zero_le _) fun _ _ => Nat.zero_le _
  ((detached.trans (clearSeen_orderly _ p)).trans (clearAux_orderly _ p)).trans (.forEach orphan_orderly _ _)

/-- A change of a present line touches neither queue nor transmitter. -/
theorem changeLine_keeps (p : Port) (console : Bool) : StepKeeps s (s.changeLine p console) where
  toKeepsLaws := (s.modPort_orderly p (fun q => { q with present := console, watchMs := presentMs })
    (fun _ => Nat.le_refl _) fun _ => id).toKeepsLaws
  quiet := id
  busy h q := by
    by_cases hq : q = p
    · subst hq
      rw [changeLine, port_modPort_self]
      exact h q
    · rw [changeLine, port_modPort_ne _ _ hq]
      exact h q

theorem lineCommand_keeps (p : Port) (console : Bool) (f : State → State) (hf : ∀ u, Orderly u (f u)) :
    StepKeeps s (s.lineCommand p console f) := by
  unfold lineCommand
  split
  · exact .atExpiry fun _ _ => (hf _).toKeepsLaws
  · exact s.changeLine_keeps p console

/-- An event that only changes one port, with room left. -/
theorem portEvent_keeps (c : Prop) [Decidable c] (p : Port) (f : PortState → PortState)
    (hp : ∀ q, (f q).placesTaken ≤ q.placesTaken)
    (hn : ∀ q : PortState, q.notices.length ≤ 16 → (f q).notices.length ≤ 16) :
    StepKeeps s (if c then s.event fun s => s.modPort p f else s) := by
  split
  · exact .event (modPort_orderly _ p f hp hn).toKeepsLaws
  · exact .refl s

/-! ### Lines and timers (R34 to R38, R84, R88, R111, R116) -/

/-- An input whose accepted level stays leaves the chord as it is. -/
theorem setCond_orderly (d : Inp) (c : InputState) (timer : Option Nat) (h : c.accepted = (s.input d).cond.accepted) :
    Orderly s (s.setCond d c timer) := by
  refine ⟨⟨id, id, .of_eq rfl (fun e => ?_) rfl rfl rfl⟩, fun _ => Nat.le_refl _⟩
  by_cases he : e = d
  · subst he
    rw [setCond, input_modInput_self, h]
  · rw [setCond, input_modInput_ne _ _ he]

theorem addSeen_orderly (d : Inp) : Orderly s (s.addSeen d) := by
  unfold addSeen
  refine .forEach (fun t p => ?_) _ _
  exact ⟨⟨id, id, id⟩, fun _ => Nat.le_refl _⟩

theorem passage_orderly (d : Inp) : Orderly s (s.passage d) := by
  unfold passage
  refine .ite (.refl s) ((s.addSeen_orderly d).trans ?_)
  dsimp only
  split
  · exact .of_reach (entryPassage_frame _ _ d) (by simp)
  · exact .of_reach (brakePassage_frame _ _) (by simp)
  · exact .refl _

theorem reconditioned_orderly (hrun : s.running = true) (d : Inp) (c : InputState) (timer : Option Nat) :
    Orderly s (s.setCond d c timer).updateChord := updateChord_orderly hrun rfl rfl rfl rfl id

theorem becomeActive_orderly (hrun : s.running = true) (d : Inp) : Orderly s (s.becomeActive d) :=
  (s.reconditioned_orderly hrun d .active none).trans (passage_orderly _ d)

theorem idleInactive_orderly (d : Inp) (h : (s.input d).cond = .idle) : Orderly s (s.idleInactive d) :=
  .ite (s.setCond_orderly d _ _ (by simp [h, InputState.accepted])) (s.setCond_orderly d _ _ (by simp [h]))

theorem wentActive_orderly (hrun : s.running = true) (d : Inp) : Orderly s (s.wentActive d) := by
  unfold wentActive
  split
  case h_1 => exact .refl s
  case h_2 h => exact s.setCond_orderly d _ _ (by simp [h])
  case h_3 h => exact .ite (s.becomeActive_orderly hrun d) (s.setCond_orderly d _ _ (by simp [h, InputState.accepted]))
  case h_4 => exact .refl s
  case h_5 => exact .refl s
  case h_6 h => exact s.setCond_orderly d _ _ (by simp [h, InputState.accepted])

theorem wentInactive_orderly (hrun : s.running = true) (d : Inp) : Orderly s (s.wentInactive d) := by
  unfold wentInactive
  split
  case h_1 => exact .refl s
  case h_2 h => exact s.idleInactive_orderly d h
  case h_3 => exact .refl s
  case h_4 h => exact s.setCond_orderly d _ _ (by simp [h, InputState.accepted])
  case h_5 h =>
    exact .ite (s.reconditioned_orderly hrun d .inactive none)
      (s.setCond_orderly d _ _ (by simp [h, InputState.accepted]))
  case h_6 => exact .refl s

theorem checkExpiry_orderly (hrun : s.running = true) (d : Inp) : Orderly s (s.checkExpiry d) := by
  unfold checkExpiry
  split
  case h_1 => exact .refl s
  case h_2 h => exact s.setCond_orderly d _ _ (by simp [h, InputState.accepted])
  case h_3 => exact .refl s
  case h_4 => exact s.becomeActive_orderly hrun d
  case h_5 => exact .refl s
  case h_6 => exact s.reconditioned_orderly hrun d .inactive none

/-- A line's level is no input's accepted level. -/
theorem setLevel_orderly (d : Inp) (high : Bool) : Orderly s (s.modInput d fun i => { i with high := high }) := by
  refine ⟨⟨id, id, .of_eq rfl (fun e => ?_) rfl rfl rfl⟩, fun _ => Nat.le_refl _⟩
  by_cases he : e = d
  · subst he
    rw [input_modInput_self]
  · rw [input_modInput_ne _ _ he]

theorem lineChange_orderly (d : Inp) (high : Bool) : Orderly s (s.lineChange d high) := by
  unfold lineChange
  refine (s.setLevel_orderly d high).trans ?_
  dsimp only
  split
  · exact .refl _
  · rename_i h
    have hrun : (s.modInput d fun i => { i with high := high }).running = true := by
      simp only [Bool.or_eq_true, Bool.not_eq_true', not_or, Bool.not_eq_false] at h
      exact h.1
    split
    · exact wentActive_orderly _ hrun d
    · exact wentInactive_orderly _ hrun d

theorem checkLeft_running {d : Inp} {ms : Nat} (h : s.checkLeft d = some ms) : s.running = true := by
  by_contra hr
  simp [checkLeft, hr] at h

theorem clearanceOver_orderly (x : Sec) : Orderly s (s.clearanceOver x) :=
  (s.toRest_orderly x).trans (scanFor_orderly _ x)

theorem watchEffective_orderly (c : Conv) (m : Nat) : Orderly s (s.watchEffective c m) :=
  .of_reach (s.watchEffective_frame c m) (by simp)

theorem settled_orderly (c : Conv) : Orderly s (s.settled c) := by
  unfold settled
  split
  · exact s.watchEffective_orderly c _
  all_goals exact .refl s

theorem withRecord_orderly (c : Conv) (j : Nat) (f : State → Crossing → State) (hf : ∀ u r, Orderly u (f u r)) :
    Orderly s (s.withRecord c j f) := by
  unfold withRecord
  split
  · exact hf s _
  · exact .refl s

theorem gapLag_orderly (c : Conv) (r : Crossing) : Orderly s (s.gapLag c r) :=
  .of_reach (s.gapLag_frame c r) (congrArg Dispatcher.auxQueues (s.gapLag_frame c r).rds)

theorem gapLost_orderly (c : Conv) (r : Crossing) : Orderly s (s.gapLost c r) :=
  .of_reach (s.gapLost_frame c r) (by simp)

theorem tick_orderly : Orderly s s.tick := by
  have ramped : Orderly s (s.forEach s.activeTrucks rampTruck) :=
    .forEach (fun t a => .of_reach (t.rampTruck_frame a) (congrArg Dispatcher.auxQueues (t.rampTruck_frame a).rds)) _ _
  have next (t : State) : Orderly t { t with hwg := { t.hwg with tickInMs := tickMs } } := .of_eq rfl rfl rfl rfl rfl
  exact ramped.trans (next _)

/-! ### The radio slot (R130 to R143) -/

theorem frameReport_orderly (a : Addr) : Orderly s (s.frameReport a) := by
  unfold frameReport
  split
  · exact .of_eq rfl rfl rfl rfl rfl
  · exact .ite (.of_reach (s.watchFrame_frame _) (by simp)) (.refl s)
  · exact .refl s

theorem lateness_orderly (a : Addr) (usage : TruckUse) (deadline : Option Nat) :
    Orderly s (s.lateness a usage deadline) := by
  unfold lateness
  split
  · exact .ite (s.raise_orderly _ _) (.refl s)
  · exact .refl s

theorem putFrame_orderly (a : Addr) (horn coupler : Bool) : Orderly s (s.putFrame a horn coupler) :=
  .of_eq rfl rfl rfl rfl rfl

theorem sendFrame_orderly (a : Addr) (horn coupler : Bool) : Orderly s (s.sendFrame a horn coupler) :=
  ((s.putFrame_orderly a horn coupler).trans (frameReport_orderly _ a)).trans (lateness_orderly _ a _ _)

/-- The entry that is served leaves its queue (R142). -/
theorem serveAux_orderly (p : Port) : Orderly s (s.serveAux p) := by
  unfold serveAux
  split
  · exact .refl s
  · rename_i e rest hq
    refine Orderly.trans ?_ (sendFrame_orderly _ _ _ _)
    refine .of_le rfl rfl rfl rfl fun q => ?_
    rw [auxQueue_put _ _ p rest rfl]
    split
    · rename_i hp
      subst hp
      rw [hq]
      exact Nat.le_succ _
    · exact Nat.le_refl _

theorem sendChoice_orderly (choice : Choice) : Orderly s (s.sendChoice choice) := by
  cases choice with
  | broadcast => exact .of_eq rfl rfl rfl rfl rfl
  | stop a => exact s.sendFrame_orderly a false false
  | branch a => exact s.sendFrame_orderly a false false
  | due a => exact s.sendFrame_orderly a false false
  | ramp a =>
    refine Orderly.trans ?_ (sendFrame_orderly _ a false false)
    exact s.modRds_orderly _ fun _ _ => Nat.le_refl _
  | aux p => exact s.serveAux_orderly p
  | early a => exact s.sendFrame_orderly a false false
  | idle => exact .refl s

theorem countAux_auxQueues (r : Dispatcher) (aux : Bool) : (r.countAux aux).auxQueues = r.auxQueues := by
  unfold Dispatcher.countAux
  split
  · rfl
  · split
    · split <;> rfl
    · rfl

theorem countAux_orderly (aux : Bool) : Orderly s (s.modRds fun r => r.countAux aux) :=
  s.modRds_orderly _ fun r p => by rw [countAux_auxQueues]

theorem openSlot_orderly : Orderly s s.openSlot := s.modRds_orderly _ fun _ _ => Nat.le_refl _

theorem modemDown_orderly : Orderly s s.modemDown := by
  unfold modemDown
  refine Orderly.trans ?_ (.ite (causePresent_orderly _ .radio (by decide)) (.refl _))
  exact s.modRds_orderly _ fun _ _ => Nat.le_refl _

theorem modemUp_orderly : Orderly s s.modemUp := by
  unfold modemUp
  refine Orderly.trans ?_ (.ite (modHls_orderly _ _ fun _ => rfl) (.refl _))
  exact s.modRds_orderly _ fun _ _ => Nat.le_refl _

theorem slotDown_orderly : Orderly s s.slotDown :=
  (s.openSlot_orderly.trans (modemDown_orderly _)).trans (countAux_orderly _ false)

theorem slotUp_orderly : Orderly s s.slotUp :=
  ((s.openSlot_orderly.trans (modemUp_orderly _)).trans (sendChoice_orderly _ _)).trans (countAux_orderly _ _)

theorem slot_orderly (ready : Bool) : Orderly s (if ready then s.slotUp else s.slotDown) :=
  .ite s.slotUp_orderly s.slotDown_orderly

end State

/-! ### Transmitters (R154, R159) -/

theorem PortState.endMessage_room (q : PortState) :
    q.endMessage.placesTaken = q.placesTaken ∧ q.endMessage.notices = q.notices := by
  unfold endMessage
  split <;> exact ⟨rfl, rfl⟩

end Sys2Proof.Machine
end

section
/-!
The law of every command and of every step, and O57.
-/

namespace Sys2Proof.Machine

open Sys2Proof

/-- An event that comes under a condition, and else nothing. -/
theorem StepKeeps.guarded {s t : State} {c : Prop} [Decidable c] (h : c → StepKeeps s t) :
    StepKeeps s (if c then t else s) := by
  split
  · exact h ‹c›
  · exact .refl s

theorem State.commitEnd_keeps (s : State) (back : StoreContents) : StepKeeps s (s.commitEnd back) := by
  unfold commitEnd
  split
  · exact .guarded fun h => .event (finishCommit_keeps { s with eventNo := s.eventNo + 1 } h _ back)
  · exact .refl s

/-- What every command keeps: each is the event of an effect that keeps the laws, or changes nothing that they read. -/
theorem exec_keeps (s : State) (i : Instr) : ∃ t, exec i s = .next t ∧ StepKeeps s t :=
  match i with
  | .powerReset => ⟨_, rfl, .event (State.resetLow_orderly _).toKeepsLaws⟩
  | .brownOut mv => ⟨_, rfl, .guarded fun _ => .event (State.enterBrownOut_orderly _ mv).toKeepsLaws⟩
  | .powerResetRelease mv => ⟨_, rfl, .guarded fun _ => .event (State.release_orderly _ mv).toKeepsLaws⟩
  | .endOfTheLoad readable => ⟨_, rfl, .guarded fun h => .event (State.finishLoad_keeps _
      (by simp [State.running, h]) readable)⟩
  | .attach p => ⟨_, rfl, s.lineCommand_keeps p true _ fun u => u.attachPort_orderly p⟩
  | .detach p => ⟨_, rfl, s.lineCommand_keeps p false _ fun u => u.detachPort_orderly p⟩
  | .interByteGap p b => ⟨_, rfl, s.portEvent_keeps _ p (fun q => { q with receiver := (Receiver.hunt.onByte b).1 })
      (fun _ => Nat.le_refl _) fun _ => id⟩
  | .messageDiscarded p => ⟨_, rfl, s.portEvent_keeps _ p (fun q => { q with receiver := .hunt })
      (fun _ => Nat.le_refl _) fun _ => id⟩
  | .unknownKind p kind tag body => ⟨_, rfl, s.serve_orderly p _ tag _ fun u _ => .refl u⟩
  | .readMap p tag body => ⟨_, rfl, s.serve_orderly p _ tag _ fun u _ => u.readMap_orderly body⟩
  | .editSection p tag body => ⟨_, rfl, s.serve_orderly p _ tag _ fun u _ => u.editSection_orderly body⟩
  | .editZone p tag body => ⟨_, rfl, s.serve_orderly p _ tag _ fun u _ => u.editZone_orderly body⟩
  | .editDetector p tag body => ⟨_, rfl, s.serve_orderly p _ tag _ fun u hu => u.editDetector_orderly hu body⟩
  | .editGroup p tag body => ⟨_, rfl, s.serve_orderly p _ tag _ fun u _ => u.editGroup_orderly body⟩
  | .editSettings p tag body => ⟨_, rfl, s.serve_orderly p _ tag _ fun u hu => u.editSettings_orderly hu body⟩
  | .commitMap p tag body => ⟨_, rfl, s.serve_keeps p _ tag _ fun u hu hroom => u.commitMap_keeps hu p hroom _ tag body⟩
  | .commitEnd back => ⟨_, rfl, s.commitEnd_keeps back⟩
  | .queryDetectors p tag body => ⟨_, rfl, s.serve_orderly p _ tag _ fun u _ => u.queryDetectors_orderly p body⟩
  | .claim p tag body => ⟨_, rfl, s.serve_bareConvoy p _ tag _ body _ fun u c => u.claim_orderly p c⟩
  | .releaseClaim p tag body => ⟨_, rfl, s.serve_bareConvoy p _ tag _ body _ fun u c => u.releaseClaim_orderly p c⟩
  | .form p tag body => ⟨_, rfl, s.serve_orderly p _ tag _ fun u _ =>
      u.forConvoy_orderly p _ body _ fun v c rest => v.form_orderly p c rest⟩
  | .reform p tag body => ⟨_, rfl, s.serve_orderly p _ tag _ fun u _ =>
      u.forConvoy_orderly p _ body _ fun v c rest => v.reform_orderly c rest⟩
  | .disband p tag body => ⟨_, rfl, s.serve_bareConvoy p _ tag _ body _ fun u c => u.disband_orderly c⟩
  | .setParams p tag body => ⟨_, rfl, s.serve_orderly p _ tag _ fun u _ =>
      u.forConvoy_orderly p _ body _ fun v c rest => v.setParams_orderly c rest⟩
  | .hold p tag body => ⟨_, rfl, s.serve_bareConvoy p _ tag _ body _ fun u c => u.hold_orderly c⟩
  | .unhold p tag body => ⟨_, rfl, s.serve_bareConvoy p _ tag _ body _ fun u c => u.unhold_orderly c⟩
  | .clearFault p tag body => ⟨_, rfl, s.serve_bareConvoy p _ tag _ body _ fun u c => u.clearFault_orderly p c⟩
  | .queryConvoy p tag body => ⟨_, rfl, s.serve_bareConvoy p _ tag _ body _ fun u _ => .refl u⟩
  | .setRoute p tag body => ⟨_, rfl, s.serve_orderly p _ tag _ fun u _ =>
      u.forConvoy_orderly p _ body _ fun v c rest => v.routeRequest_orderly p c rest⟩
  | .start p tag body => ⟨_, rfl, s.serve_bareConvoy p _ tag _ body _ fun u c => u.start_orderly c⟩
  | .retry p tag body => ⟨_, rfl, s.serve_bareConvoy p _ tag _ body _ fun u c => u.retry_orderly c⟩
  | .bar p tag body => ⟨_, rfl, s.serve_orderly p _ tag _ fun u _ => u.barSection_orderly body⟩
  | .unbar p tag body => ⟨_, rfl, s.serve_orderly p _ tag _ fun u _ => u.unbarSection_orderly body⟩
  | .clearSection p tag body => ⟨_, rfl, s.serve_orderly p _ tag _ fun u _ => u.clearSection_orderly body⟩
  | .setStock p tag body => ⟨_, rfl, s.serve_orderly p _ tag _ fun u _ => u.setStock_orderly body⟩
  | .querySection p tag body => ⟨_, rfl, s.serve_orderly p _ tag _ fun u _ => u.querySection_orderly body⟩
  | .aux p tag body => ⟨_, rfl, s.serve_orderly p _ tag _ fun u _ => u.auxRequest_orderly p body⟩
  | .setNotify p tag body => ⟨_, rfl, s.serve_orderly p _ tag _ fun u _ => u.setNotify_orderly p body⟩
  | .allStop p tag body => ⟨_, rfl, s.serve_orderly p _ tag _ fun u _ => u.allStop_orderly body⟩
  | .resumeAll p tag body => ⟨_, rfl, s.serve_orderly p _ tag _ fun u _ => u.resumeAll_orderly body⟩
  | .layoutReset p tag body => ⟨_, rfl, s.serve_orderly p _ tag _ fun u _ => u.layoutReset_orderly body⟩
  | .changeOfLogicalLevel d high => ⟨_, rfl, .event (State.lineChange_orderly _ d high).toKeepsLaws⟩
  | .checkTimerExpiry d => ⟨_, rfl, .atExpiry fun ms h =>
      (State.checkExpiry_orderly { s.advance ms with eventNo := (s.advance ms).eventNo + 1 }
        ((s.advance_running ms).trans (s.checkLeft_running h)) d).toKeepsLaws⟩
  | .clearanceTimerExpiry x => ⟨_, rfl, .atExpiry fun _ _ => (State.clearanceOver_orderly _ x).toKeepsLaws⟩
  | .settleTimerExpiry c => ⟨_, rfl, .atExpiry fun _ _ => (State.settled_orderly _ c).toKeepsLaws⟩
  | .gapTimerTlag c j => ⟨_, rfl, .atExpiry fun _ _ =>
      (State.withRecord_orderly _ c j _ fun u r => u.gapLag_orderly c r).toKeepsLaws⟩
  | .gapTimerTlost c j => ⟨_, rfl, .atExpiry fun _ _ =>
      (State.withRecord_orderly _ c j _ fun u r => u.gapLost_orderly c r).toKeepsLaws⟩
  | .rampTick => ⟨_, rfl, .atExpiry fun _ _ => (State.tick_orderly _).toKeepsLaws⟩
  | .slotStart ready => ⟨_, rfl, .atExpiry fun _ _ => (State.slot_orderly _ ready).toKeepsLaws⟩
  | .radioLost => ⟨_, rfl, .guarded fun _ => .atExpiry fun _ _ => (State.slotDown_orderly _).toKeepsLaws⟩
  | .supplyLow mv => ⟨_, rfl, .event
      (Orderly.ite (State.enterBrownOut_orderly _ mv) (State.supplyAt_orderly _ mv)).toKeepsLaws⟩
  | .supplyOk mv => ⟨_, rfl, .event
      (Orderly.ite (State.enterBrownOut_orderly _ mv) (State.supplyAt_orderly _ mv)).toKeepsLaws⟩
  | .flushTimerExpiry p => ⟨_, rfl, .atExpiry fun _ _ =>
      (State.modPort_orderly _ p (fun q => { q with flush := .expired }) (fun _ => Nat.le_refl _)
        fun _ => id).toKeepsLaws⟩
  | .batchStart p => ⟨_, rfl, s.portEvent_keeps _ p PortState.quiet (fun _ => Nat.le_refl _) fun _ => id⟩
  | .replySendStart p => ⟨_, rfl, s.portEvent_keeps _ p PortState.quiet (fun _ => Nat.le_refl _) fun _ => id⟩
  | .messageEnd p => ⟨_, rfl, by
      split
      · exact .refl s
      · exact .event (State.modPort_orderly _ p PortState.endMessage (fun q => q.endMessage_room.1.le) fun q hq =>
          q.endMessage_room.2 ▸ hq).toKeepsLaws⟩

/-- What a step of the part keeps, with a command waiting or by itself. -/
theorem step_keeps (s : State) : ∃ t, step s = .next t ∧ StepKeeps s t := by
  unfold step
  split
  · unfold State.runOn
    split
    · exact ⟨_, rfl, .advance s 1⟩
    · exact exec_keeps s _
    · obtain ⟨t, h, k⟩ := exec_keeps { s with fresh := s.fresh + 1 } _
      exact ⟨t, h, ⟨k.map, k.room, k.chord⟩, k.quiet, k.busy⟩
  · rename_i i rest _
    obtain ⟨t, h, k⟩ := exec_keeps { s with pending := rest } i
    exact ⟨t, h, ⟨k.map, k.room, k.chord⟩, k.quiet, k.busy⟩

/-- Settles O57: a command changes nothing that the laws read, or is one event of an effect that keeps them; the end of
the event brings its notices into queues with room and makes the idle transmitters look. -/
theorem everyStepKeepsRangesRoomAndChord : Obligations.EveryStepKeepsRangesRoomAndChord := by
  intro s t hstep hquiet
  obtain ⟨u, hu, k⟩ := step_keeps s
  obtain rfl : u = t := Host.Outcome.next.inj (hu.symm.trans hstep)
  exact ⟨k.quiet hquiet, k.map, k.room, k.busy, k.chord⟩

end Sys2Proof.Machine
end

section
/-!
SUPPORT. The whole effect of a request that its owner block answers without a notice.
-/

namespace Sys2Proof.Machine

open Sys2Proof

/-! ### Answers that raise no notice -/

/-- Where the owner block answers with what `f` makes of the state it sees, and `f` neither reads nor changes the ports,
the event's number and the notices, the whole request is the answer in the state that `f` makes. -/
theorem State.serve_answered (s : State) (p : Port) (k : Kind) (tag : Byte) (owner : State → Result) (h : Serves s p)
    (hl : k.levelZero = true → s.level p = 0) (f : State → State) (code : ReplyCode) (payload : List Byte)
    (ho : owner (s.heard p) = ⟨f (s.heard p), some ⟨code, payload⟩⟩) (hk : k.haltPayload = false)
    (hf : ∀ n ps, f { s with eventNo := n, ports := ps } = { f s with eventNo := n, ports := ps })
    (hr : (f s).raised = []) (he : (f s).eventNo = s.eventNo) (hp : (f s).ports = s.ports) :
    s.serve p k tag owner = (f s).replied p (s.port p).lastConvoy (k.code ||| 0x80) tag code payload := by
  have seen : f (s.heard p) = { f s with
      eventNo := s.eventNo + 1, ports := s.ports.put p { s.port p with receiver := .hunt } } := hf _ _
  rw [serve_owner s p k tag owner h hl, ho]
  simp only [Result.send, Kind.tail, hk, seen]
  rw [deliver_quiet _ (by simpa [reply] using hr)]
  simp [reply, replied, State.modPort, PortState.after, replyMessage, he, hp, State.port]

end Sys2Proof.Machine
end

section
/-!
SUPPORT. The section entry of Table 1.6 is read back from the bytes that show it.
-/

namespace Sys2Proof.Machine

open Sys2Proof

/-! ### Fields of a byte (R147, Tables 1.6 and 1.7) -/

theorem byte_toNat {n : Nat} (h : n < 256) : (byte n).toNat = n := by
  rw [byte, BitVec.toNat_ofNat, Nat.mod_eq_of_lt h]

theorem bits_byte {n : Nat} (h : n < 256) (hi lo : Nat) : bits (byte n) hi lo = n / 2 ^ lo % 2 ^ (hi + 1 - lo) := by
  rw [bits, byte_toNat h, Nat.shiftRight_eq_div_pow]

theorem bit_byte {n : Nat} (h : n < 256) (i : Nat) : bit (byte n) i = decide (n / 2 ^ i % 2 = 1) := by
  rw [bit, byte_toNat h, Nat.testBit_eq_decide_div_mod_eq]

theorem bits_lt (b : Byte) (hi lo : Nat) : bits b hi lo < 2 ^ (hi + 1 - lo) := Nat.mod_lt _ (Nat.two_pow_pos _)

/-- The two bytes of a number of two bytes are read back as the number (R147). -/
theorem word_byte {n : Nat} (h : n < 65536) : word (byte (n % 256)) (byte (n / 256)) = n := by
  rw [word, byte_toNat (by omega), byte_toNat (by omega)]
  omega

theorem secArg_byte (x : Sec) : secArg (byte x.1) = some x := by
  have hx := x.2
  rw [secArg, byte_toNat (by omega), secOf, dif_pos hx]

/-- A field that is absent is a byte of zeros; one that is present has bit 7 set above its number (R18). -/
theorem optionalByte_some {n : Nat} (h : n < 64) : optionalByte (some n) = byte (n + 128) := by
  rw [optionalByte, Nat.mod_eq_of_lt h]

/-- An optional six-bit number is read back from its byte, bit 6 clear. -/
theorem optionalByte_read (o : Option Nat) (h : ∀ n, o = some n → n < 64) :
    bit (optionalByte o) 6 = false ∧ bits (optionalByte o) 5 0 = o.getD 0 ∧ bit (optionalByte o) 7 = o.isSome := by
  cases o with
  | none => decide
  | some n =>
    have hn : n < 64 := h n rfl
    rw [optionalByte_some hn, bits_byte (by omega), bit_byte (by omega), bit_byte (by omega)]
    refine ⟨?_, ?_, ?_⟩
    · simp only [decide_eq_false_iff_not]
      omega
    · simp only [Option.getD_some]
      omega
    · simp only [Option.isSome_some, decide_eq_true_eq]
      omega

/-- A field read under its present bit is the field that was laid out. -/
theorem optional_eq {α : Type} {b : Byte} {x : α} {o : Option α} (hb : bit b 7 = o.isSome)
    (hx : ∀ y, o = some y → x = y) : optional b x = o := by
  cases o with
  | none => simp_all [optional]
  | some y => simp_all [optional]

/-! ### The section entry (R18, Table 1.6) -/

theorem kindArg_code {k : SecKind} (h : k ≠ .code3) : kindArg k.code = some k := by
  cases k with
  | code3 => contradiction
  | plain => rfl
  | fork => rfl
  | bay => rfl

/-- Byte 1 of a section entry: kind, zone and bar flag in fields of their own, and bit 7 clear. -/
theorem kindByte_read (k : SecKind) (z : Zone) (barred : Bool) :
    let b := byte (k.code + 4 * z.1 + flagBit barred 6)
    bits b 1 0 = k.code ∧ zoneBits b = z ∧ bit b 7 = false := by
  have hz := z.2
  have hk : k.code < 4 := by cases k <;> decide
  have hf : flagBit barred 6 = 0 ∨ flagBit barred 6 = 64 := by cases barred <;> decide
  refine ⟨?_, Fin.ext ?_, ?_⟩
  · rw [bits_byte (by omega)]
    omega
  · change bits _ 5 2 = z.1
    rw [bits_byte (by omega)]
    omega
  · rw [bit_byte (by omega), decide_eq_false_iff_not]
    omega

/-- The group of a section entry is read back from byte 8, whose bits 3 to 6 are clear. -/
theorem groupByte_read (o : Option Grp) :
    let b := optionalByte (o.map Fin.val)
    bits b 6 3 = 0 ∧ optional b (grpBits b) = o := by
  cases o with
  | none => decide
  | some g =>
    revert g
    decide

/-- A section entry in the layout of Table 1.6 is read as the record it shows, the bar flag taken as set. -/
theorem sectionEntry_sectionBytes (x : Sec) (r : SectionRec) (hk : r.kind ≠ .code3) (h20 : 20 ≤ r.length)
    (h2000 : r.length ≤ 2000) (he : r.entry.1 ≤ 59) (hb : ∀ b, r.brake = some b → b.1 ≤ 59)
    (h0 : ∀ n, r.succ0 = some n → n < 48) (h1 : ∀ n, r.succ1 = some n → n < 48) :
    sectionEntry (sectionBytes x r) = some (x, { r with barred := true }) := by
  obtain ⟨kindBits, zone, kindTop⟩ := kindByte_read r.kind r.zone r.barred
  obtain ⟨brake6, brakeBits, brake7⟩ := optionalByte_read (r.brake.map Fin.val) fun n _ => by
    obtain ⟨b, -, rfl⟩ := Option.map_eq_some_iff.mp ‹_›
    exact b.2
  obtain ⟨succ06, succ0Bits, succ07⟩ := optionalByte_read r.succ0 fun n hn => (h0 n hn).trans (by decide)
  obtain ⟨succ16, succ1Bits, succ17⟩ := optionalByte_read r.succ1 fun n hn => (h1 n hn).trans (by decide)
  have brake59 : (r.brake.map Fin.val).getD 0 ≤ 59 := by
    cases hr : r.brake with
    | none => decide
    | some b => exact hb b hr
  have succ0_48 : r.succ0.getD 0 < 48 := by
    cases hr : r.succ0 with
    | none => decide
    | some n => exact h0 n hr
  have succ1_48 : r.succ1.getD 0 < 48 := by
    cases hr : r.succ1 with
    | none => decide
    | some n => exact h1 n hr
  have entryTop : bits (byte r.entry.1) 7 6 = 0 := by
    rw [bits_byte (by omega)]
    omega
  have entryBits : bits (byte r.entry.1) 5 0 = r.entry.1 := by
    rw [bits_byte (by omega)]
    omega
  obtain ⟨groupClear, group⟩ := groupByte_read r.group
  have secTop : bits (byte x.1) 7 6 = 0 := by
    have hx := x.2
    rw [bits_byte (by omega)]
    omega
  have length : word (byte (r.length % 256)) (byte (r.length / 256)) = r.length := word_byte (by omega)
  have entry : inpBits (byte r.entry.1) = r.entry := Fin.ext entryBits
  have brake : optional (optionalByte (r.brake.map Fin.val)) (inpBits (optionalByte (r.brake.map Fin.val))) = r.brake :=
    optional_eq (by rw [brake7, Option.isSome_map]) fun b hr => Fin.ext (brakeBits.trans (by simp [hr]))
  have succ0 : optional (optionalByte r.succ0) (r.succ0.getD 0) = r.succ0 := optional_eq succ07 fun n hr => by simp [hr]
  have succ1 : optional (optionalByte r.succ1) (r.succ1.getD 0) = r.succ1 := optional_eq succ17 fun n hr => by simp [hr]
  simp [sectionBytes, twoBytes, sectionEntry, secArg_byte, kindBits, kindArg_code hk, entryBitsClear, kindTop, zone,
    brake6, brakeBits, succ06, succ0Bits, succ16, succ1Bits, secTop, entryTop, entryBits, groupClear, group, length,
    h20, h2000, he, brake59, succ0_48, succ1_48, entry, brake, succ0, succ1]

end Sys2Proof.Machine
end

section
/-!
EDIT_SECTION and EDIT_ZONE: O11 and O12.
-/

namespace Sys2Proof.Machine

open Sys2Proof

/-! ### EDIT_SECTION (R27) -/

/-- The record of a barred section may be replaced where R27 says so. -/
theorem State.editable_iff (s : State) (x : Sec) (k : SecKind) : s.editable x k = true ↔
    (s.sec x).dyn = .barred ∧ (s.sec x).queue = [] ∧ (∀ c, s.formed c = true → x ∉ (s.road c).route)
      ∧ (s.map.isBay x = true → 0 < (s.sec x).stock → k = .bay) := by
  have route : s.onRoute x = false ↔ ∀ c, s.formed c = true → x ∉ (s.road c).route := by
    simp [onRoute, allConvoys]
  have stock : (s.map.isBay x && decide (0 < (s.sec x).stock) && k != .bay) = false
      ↔ (s.map.isBay x = true → 0 < (s.sec x).stock → k = .bay) := by
    cases s.map.isBay x <;> simp
  simp only [editable, Bool.and_eq_true, beq_iff_eq, List.isEmpty_iff, Bool.not_eq_true', route, stock, and_assoc]

/-- The stock goes with the record, unless a BAY stays one (R27). -/
theorem State.replaceSection_eq (s : State) (x : Sec) (r : SectionRec) : s.replaceSection x r
    = (s.setMap { s.map with sections := s.map.sections.put x r }).modSec x fun q =>
        { q with stock := if s.map.isBay x = true ∧ r.kind = .bay then q.stock else 0 } := by
  unfold replaceSection
  by_cases h : s.map.isBay x = true ∧ r.kind = .bay
  · have kept (t : State) : t = t.modSec x fun q => { q with stock := q.stock } := by
      rw [modSec, tab_put_nth]
    simp only [h, and_self, beq_self_eq_true, Bool.and_self, if_true]
    exact kept _
  · have hb : ¬ (s.map.isBay x && r.kind == .bay) = true := by simpa using h
    simp only [if_neg h, if_neg hb]

theorem State.replaceSection_entryBytes (s : State) (x : Sec) (r : SectionRec) :
    (s.replaceSection x r).map.entryBytes (.sec x) = sectionBytes x r := by
  rw [replaceSection_eq, map_modSec]
  exact congrArg (sectionBytes x) (tab_nth_put_self _ _ _)

theorem State.editSection_none (s : State) (body : List Byte) (hready : s.mu.phase = .ready)
    (h : sectionEntry body = none) : s.editSection body = s.refusal .badArg := by
  simp [editSection, mapRequest, hready, h]

theorem State.editSection_some (s : State) (body : List Byte) {x : Sec} {r : SectionRec} (hready : s.mu.phase = .ready)
    (h : sectionEntry body = some (x, r)) : s.editSection body
      = if s.editable x r.kind then ⟨s.replaceSection x r, some ⟨.ok, sectionBytes x r⟩⟩ else s.refusal .badState := by
  simp [editSection, mapRequest, hready, h, accepted, replaceSection_entryBytes]

/-! ### EDIT_ZONE (R19, R28) -/

/-- The cap fields of a profile entry hold six and five bits (Table 1.7). -/
theorem profileEntry_caps {body : List Byte} {n : ProfileNo} {r : Profile} (h : profileEntry body = some (n, r)) :
    r.speedCap ≤ 63 ∧ r.approachCap ≤ 31 := by
  unfold profileEntry at h
  split at h
  · rename_i b0 b1 b2 b3
    split at h
    · split at h
      · obtain ⟨-, rfl⟩ := Prod.mk.inj (Option.some.inj h)
        exact ⟨Nat.le_of_lt_succ (bits_lt b1 5 0), Nat.le_of_lt_succ (bits_lt b2 4 0)⟩
      · cases h
    · cases h
  · cases h

/-- The caps of a profile that came in an entry, clamped: each has one limit that its field can pass (R19). -/
theorem Profile.clamped_eq (r : Profile) (hs : r.speedCap ≤ 63) (ha : r.approachCap ≤ 31) :
    let speed := if r.speedCap < 4 then 4 else r.speedCap
    let approach := if r.approachCap = 0 then 1 else if speed < r.approachCap then speed else r.approachCap
    r.clamped = ⟨speed, approach, r.holdCode, r.settleCode⟩ := by
  have speed : clampSpeedCap r.speedCap = if r.speedCap < 4 then 4 else r.speedCap := by
    unfold clampSpeedCap
    split <;> omega
  have approach (v : Nat) (hv : 4 ≤ v) : clampApproachCap r.approachCap v
      = if r.approachCap = 0 then 1 else if v < r.approachCap then v else r.approachCap := by
    unfold clampApproachCap
    split
    · omega
    · split <;> omega
  simp only [clamped, speed]
  rw [approach _ (by split <;> omega)]

theorem flagBit_ne (a b i : Nat) : flagBit (a != b) i = if a = b then 0 else 2 ^ i := by
  by_cases h : a = b <;> simp [flagBit, h]

theorem State.secHolder_eq_some (s : State) (x : Sec) (c : Conv) :
    s.secHolder x = some c ↔ (s.sec x).dyn = .held c := by
  unfold secHolder
  cases h : (s.sec x).dyn <;> simp

/-- Some section of either zone of a profile is HELD (R6, R28). -/
theorem State.zoneHeld_iff (s : State) (n : ProfileNo) :
    s.zoneHeld n = true ↔ ∃ x c, (s.sectionRec x).zone.1 / 2 = n.1 ∧ (s.sec x).dyn = .held c := by
  have zone (x : Sec) : profileNo (s.sectionRec x).zone = n ↔ (s.sectionRec x).zone.1 / 2 = n.1 := Fin.ext_iff
  simp only [zoneHeld, isHeld, allSections, List.any_eq_true, List.mem_finRange, true_and, Bool.and_eq_true, beq_iff_eq,
    zone, Option.isSome_iff_exists, secHolder_eq_some, exists_and_left]

/-- The state with profile `n` of the map replaced. -/
def State.withProfile (s : State) (n : ProfileNo) (r : Profile) : State :=
  { s with mu := { s.mu with map := { s.map with profiles := s.map.profiles.put n r } } }

theorem State.editZone_none (s : State) (body : List Byte) (hready : s.mu.phase = .ready)
    (h : profileEntry body = none) : s.editZone body = s.refusal .badArg := by
  simp [editZone, mapRequest, hready, h]

theorem State.editZone_held (s : State) (body : List Byte) {n : ProfileNo} {r : Profile} (hready : s.mu.phase = .ready)
    (h : profileEntry body = some (n, r)) (hz : s.zoneHeld n = true) : s.editZone body = s.refusal .badState := by
  simp [editZone, mapRequest, hready, h, hz]

theorem State.editZone_some (s : State) (body : List Byte) {n : ProfileNo} {r : Profile} (hready : s.mu.phase = .ready)
    (h : profileEntry body = some (n, r)) (hz : s.zoneHeld n = false) :
    let mask := (if r.clamped.speedCap = r.speedCap then 0 else 1)
      + if r.clamped.approachCap = r.approachCap then 0 else 2
    s.editZone body = ⟨s.withProfile n r.clamped,
      some ⟨if mask = 0 then .ok else .clamped, byte mask :: profileBytes n r.clamped⟩⟩ := by
  have bytes : (s.withProfile n r.clamped).map.entryBytes (.profile n) = profileBytes n r.clamped :=
    congrArg (profileBytes n) (tab_nth_put_self _ _ _)
  simp only [editZone, mapRequest, hready, h, hz, flagBit_ne, masked, reduceCtorEq, if_false, Bool.false_eq_true]
  rw [← bytes]
  rfl

/-- Settles O11: the generic checks pass the body to the owner block, which tests the entry and then the section; the
round trip is `sectionEntry_sectionBytes`. -/
theorem editSectionReplacesTheRecord : Obligations.EditSectionReplacesTheRecord := by
  refine ⟨fun s p tag body hs hl hready h => ?_, fun s p tag body x r hs hl hready h => ?_,
    sectionEntry_sectionBytes⟩
  · exact congrArg Host.Outcome.next (s.serve_refused p _ tag _ hs (fun _ => hl) .badArg []
      ((s.heard p).editSection_none body hready h))
  · have block := (s.heard p).editSection_some body hready h
    split
    · rename_i hc
      rw [if_pos (((s.heard p).editable_iff x r.kind).mpr hc)] at block
      refine congrArg Host.Outcome.next ((s.serve_answered p _ tag _ hs (fun _ => hl)
        (fun u => u.replaceSection x r) .ok _ block rfl (fun n ps => ?_) ?_ ?_ ?_).trans ?_)
      · simp only [State.replaceSection_eq]
        rfl
      · rw [State.replaceSection_eq]
        exact hs.1
      · rw [State.replaceSection_eq]
        rfl
      · rw [State.replaceSection_eq]
        rfl
      · rw [State.replaceSection_eq]
        rfl
    · rename_i hc
      rw [if_neg fun he => hc (((s.heard p).editable_iff x r.kind).mp he)] at block
      exact congrArg Host.Outcome.next (s.serve_refused p _ tag _ hs (fun _ => hl) .badState [] block)

/-- Settles O12: the caps come in fields of six and five bits, so that clamping is the comparisons of the statement. -/
theorem editZoneClampsTheCaps : Obligations.EditZoneClampsTheCaps := by
  intro s p tag body hs hl hready
  refine ⟨fun h => ?_, fun n r h => ⟨fun hz => ?_, fun hz => ?_⟩⟩
  · exact congrArg Host.Outcome.next (s.serve_refused p _ tag _ hs (fun _ => hl) .badArg []
      ((s.heard p).editZone_none body hready h))
  · exact congrArg Host.Outcome.next (s.serve_refused p _ tag _ hs (fun _ => hl) .badState []
      ((s.heard p).editZone_held body hready h (((s.heard p).zoneHeld_iff n).mpr hz)))
  · have free : (s.heard p).zoneHeld n = false := Bool.eq_false_iff.mpr fun hh => by
      obtain ⟨x, c, hx, hc⟩ := ((s.heard p).zoneHeld_iff n).mp hh
      exact hz x c hx hc
    obtain ⟨speed, approach⟩ := profileEntry_caps h
    have block := (s.heard p).editZone_some body hready h free
    rw [r.clamped_eq speed approach] at block
    exact congrArg Host.Outcome.next (s.serve_answered p _ tag _ hs (fun _ => hl) (fun u => u.withProfile n _) _ _ block
      rfl (fun _ _ => rfl) hs.1 rfl rfl)

end Sys2Proof.Machine
end

section
/-!
Passages and their attribution: O41.
-/

namespace Sys2Proof.Machine

open Sys2Proof

namespace State

variable (s : State)

/-! ### The event in which an input becomes ACTIVE (R36, R38, R41) -/

/-- What an event does is its effect on the state with the event's number. -/
theorem event_congr {f g : State → State}
    (h : f { s with eventNo := s.eventNo + 1 } = g { s with eventNo := s.eventNo + 1 }) :
    s.event f = s.event g := by rw [event, event, h]

theorem becomeActive_of_level (d : Inp) (high : Bool) :
    (s.modInput d fun i => { i with high := high }).becomeActive d
      = ((s.modInput d fun _ => ⟨high, .active, none⟩).updateChord).passage d := by
  have conditioned : (s.modInput d fun i => { i with high := high }).setCond d .active none
      = s.modInput d fun _ => ⟨high, .active, none⟩ := by
    simp only [setCond, modInput, tab_put_put, tab_nth_put_self]
  rw [becomeActive, conditioned]

/-- With its filter off, an input in INACTIVE is ACTIVE as soon as its line shows the active level (R38). -/
theorem lineChange_active (d : Inp) (high : Bool) (hrun : s.running = true) (hc : (s.input d).cond = .inactive)
    (hf : s.map.filterCode d = 0) (hne : (s.input d).high ≠ high) (ha : high = (s.map.detectors.nth d).activeHigh) :
    s.lineChange d high = ((s.modInput d fun _ => ⟨high, .active, none⟩).updateChord).passage d := by
  have before : s.logical d = false := by
    rw [logical, ← ha]
    simpa using hne
  have after : (s.modInput d fun i => { i with high := high }).logical d = true := by
    simp [logical, ← ha]
  have running : (s.modInput d fun i => { i with high := high }).running = true := hrun
  have off : (s.modInput d fun i => { i with high := high }).filterOff d = true := by
    simp [filterOff, hf]
  rw [← becomeActive_of_level]
  simp [lineChange, before, after, running, wentActive, hc, off]

/-- An input in RISING is ACTIVE when its check timer expires (R36). -/
theorem checkExpiry_rising (d : Inp) (hc : (s.input d).cond = .rising) :
    s.checkExpiry d = ((s.modInput d fun i => ⟨i.high, .active, none⟩).updateChord).passage d := by
  rw [checkExpiry, hc]
  rfl

/-! ### Attribution (R100) -/

theorem mem_overrunCandidates (x : Sec) (c : Conv) : c ∈ s.overrunCandidates x ↔
    s.formed c = true ∧ s.nextSec? c = some x ∧ s.secHolder x ≠ some c := by
  have holds : s.holds c x = false ↔ s.secHolder x ≠ some c := by
    rw [Ne, secHolder_eq_some, holds]
    simp
  simp [overrunCandidates, allConvoys, holds, and_assoc]

/-- The one convoy whose leader was due overruns (R100 case 2). -/
theorem unheldAttribution_overrun (x : Sec) (c : Conv) (hc : c ∈ s.overrunCandidates x)
    (honly : ∀ e ∈ s.overrunCandidates x, e = c) : s.unheldAttribution x = .overrun c := by
  have nodup : (s.overrunCandidates x).Nodup := (List.nodup_finRange 12).filter _
  have single : s.overrunCandidates x = [c] := by
    match h : s.overrunCandidates x with
    | [] => simp [h] at hc
    | [e] => rw [honly e (by simp [h])]
    | e :: f :: l =>
      have hef : e = f := (honly e (by simp [h])).trans (honly f (by simp [h])).symm
      simp [h, hef] at nodup
  simp [unheldAttribution, single]

/-- Where no convoy was due alone the passage is a stray (R100 case 3). -/
theorem unheldAttribution_stray (x : Sec) (h : ∀ c ∈ s.overrunCandidates x, ∃ e ∈ s.overrunCandidates x, e ≠ c) :
    s.unheldAttribution x = .stray := by
  unfold unheldAttribution
  split
  · rename_i c hc
    obtain ⟨e, he, hne⟩ := h c (by simp [hc])
    simp [hc, hne] at he
  · rfl
  · rfl

/-- A holder that neither expects a member in the section nor is due to enter it leaves the passage to cases 2 and 3. -/
theorem attribution_unclaimed (x : Sec)
    (h : ∀ c, ¬ (s.secHolder x = some c ∧ ((s.expecting? c x).isSome = true ∨ s.nextSec? c = some x))) :
    s.attribution x = s.unheldAttribution x := by
  unfold attribution
  split
  · rfl
  · rename_i c hc
    split
    · rename_i r hr
      exact absurd ⟨hc, .inl (by simp [hr])⟩ (h c)
    · rw [if_neg fun hn => h c ⟨hc, .inr hn⟩]

end State

/-- Settles O41: the conditioning of the input, the role of its detector, the attribution's cases in their order. -/
theorem passagesAreAttributed : Obligations.PassagesAreAttributed := by
  refine ⟨fun s d high hrun hc hf hne ha => ?_, fun s d ms hc hl => ?_, fun s d => ⟨fun hd => ?_, fun hd => ?_⟩,
    fun s x => ⟨fun c r hc hr => ?_, fun c hc hr hn => ?_, fun hnone => ⟨fun c hc honly => ?_, fun hmany => ?_⟩,
      fun d => ?_⟩⟩
  · exact congrArg Host.Outcome.next (s.event_congr (State.lineChange_active _ d high hrun hc hf hne ha))
  · have expired : s.atExpiry (s.checkLeft d) (fun s => s.checkExpiry d)
        = (s.advance ms).event fun s => s.checkExpiry d := by
      rw [hl, State.atExpiry]
    exact congrArg Host.Outcome.next (expired.trans ((s.advance ms).event_congr
      (State.checkExpiry_rising _ d ((s.advance_cond ms d).trans hc))))
  · rw [State.passage, if_pos (by simpa [State.chordSet] using hd)]
  · rw [State.passage, if_neg (by simpa [State.chordSet] using hd)]
    have map : (s.addSeen d).map = s.map := congrArg MapUnit.map (s.addSeen_frame d .mapUnit (by decide))
    cases role : s.map.roleOf d <;> simp only [map, role]
  · simp [State.attribution, hc, hr]
  · simp [State.attribution, hc, hr, hn]
  · rw [s.attribution_unclaimed x hnone]
    exact s.unheldAttribution_overrun x c ((s.mem_overrunCandidates x c).mpr hc)
      fun e he => honly e ((s.mem_overrunCandidates x e).mp he)
  · rw [s.attribution_unclaimed x hnone]
    refine s.unheldAttribution_stray x fun c hc => ?_
    obtain ⟨e, he, hne⟩ := hmany c ((s.mem_overrunCandidates x c).mp hc)
    exact ⟨e, (s.mem_overrunCandidates x e).mpr he, hne⟩
  · rfl

end Sys2Proof.Machine
end

section
/-!
Power reset, brown-out and the release of the reset: O4 and O5.
-/

namespace Sys2Proof.Machine

open Sys2Proof

/-! ### The hold and its end (R20, R166) -/

/-- A held power reset ends into a load of 60 ms where RESETN is high and the supply is out of brown-out; else it goes
on. -/
theorem State.endHold_held (s : State) (h : s.mu.phase = .held) : s.endHold =
    if s.pins.resetn = true ∧ s.pins.brownOut = false then
      { s with mu := { s.mu with phase := .loading, loadLeftMs := 60 } }
    else s := by
  simp only [endHold, h, true_and]
  rfl

/-- The supply leaves brown-out at 4.4 V, and enters it below 4.2 V. -/
theorem Pins.staysBrown_eq (k : Pins) (mv : Nat) :
    k.staysBrown mv = decide (mv < if k.brownOut then 4400 else 4200) := rfl

/-- RESETN is high in a held reset: the load begins, or the hold waits for the supply. -/
theorem State.release_held (s : State) (mv : Nat) (h : s.mu.phase = .held) : s.release mv =
    if s.pins.staysBrown mv then { s with pins := ⟨true, mv, true⟩ }
    else { s with pins := ⟨true, mv, false⟩, mu := { s.mu with phase := .loading, loadLeftMs := 60 } } := by
  rw [release, endHold_held _ (by exact h)]
  cases hb : s.pins.staysBrown mv <;> simp [supplyLine, hb]

/-- The supply moves in a held reset: the load begins where RESETN is high and the supply suffices. -/
theorem State.supplyAt_held (s : State) (mv : Nat) (h : s.mu.phase = .held) : s.supplyAt mv =
    if s.pins.resetn = true ∧ s.pins.staysBrown mv = false then
      { s with pins := ⟨true, mv, false⟩, mu := { s.mu with phase := .loading, loadLeftMs := 60 } }
    else { s with pins := ⟨s.pins.resetn, mv, s.pins.staysBrown mv⟩ } := by
  have off : (s.supplyLine mv).running = false := by simp [running, supplyLine, h]
  rw [supplyAt, if_neg (by simp [off]), endHold_held _ (by exact h)]
  cases hb : s.pins.staysBrown mv <;> cases hr : s.pins.resetn <;> simp [supplyLine, hb, hr]

/-- The state that an event's effect begins from. -/
def State.numbered (s : State) : State := { s with eventNo := s.eventNo + 1 }

/-- An event whose effect is known, and leaves no notice raised. -/
theorem State.event_eq (s : State) {f : State → State} {t : State} (h : f s.numbered = t) (hr : t.raised = []) :
    s.event f = t.looked := by
  subst h
  exact s.event_quiet f hr

/-- Settles O5: in a held reset each of the three events sets the supply and may end the hold. -/
theorem releaseBeginsTheLoad : Obligations.ReleaseBeginsTheLoad := by
  intro s mv
  have stays : s.pins.staysBrown mv = decide (mv < if s.pins.brownOut then 4400 else 4200) := s.pins.staysBrown_eq mv
  refine ⟨fun h => congrArg Host.Outcome.next (if_neg h), fun hr h => ?_⟩
  have release := s.numbered.release_held mv h
  have supply := s.numbered.supplyAt_held mv h
  refine ⟨fun hm => ?_, fun hm => ?_, fun hb i hi => ?_⟩
  · have above : ¬ s.pins.staysBrown mv = true := by simpa [stays] using hm
    exact congrArg Host.Outcome.next ((if_pos h).trans (s.event_eq (release.trans (if_neg above)) hr))
  · have below : s.pins.staysBrown mv = true := by simpa [stays] using hm
    exact congrArg Host.Outcome.next ((if_pos h).trans (s.event_eq (release.trans (if_pos below)) hr))
  · have event : exec i s = .next (s.event fun u => u.supplyAt mv) := by
      have high : ¬ mv < brownOutMv := Nat.not_lt.mpr hb
      rcases hi with rfl | rfl
      · exact congrArg Host.Outcome.next (s.event_congr (if_neg high))
      · exact congrArg Host.Outcome.next (s.event_congr (if_neg high))
    rw [event]
    refine ⟨fun hn hm => ?_, fun hw => ?_⟩
    · have begins : s.pins.resetn = true ∧ s.pins.staysBrown mv = false := ⟨hn, by simpa [stays] using hm⟩
      exact congrArg Host.Outcome.next (s.event_eq (supply.trans (if_pos begins)) hr)
    · have waits : ¬ (s.pins.resetn = true ∧ s.pins.staysBrown mv = false) := fun ⟨hn, hs⟩ => by
        rcases hw with hw | hw
        · simp [hw] at hn
        · simp [stays, hw] at hs
      rw [← stays]
      exact congrArg Host.Outcome.next (s.event_eq (supply.trans (if_neg waits)) hr)

/-! ### Power reset (R20, R33, R48, R70, R96, R114, R115, R144, R155, R160) -/

/-- The part after a power reset, with the pins as given: every port is detached, so that its transmitter's look finds
nothing. -/
def State.resetWith (s : State) (k : Pins) : State := State.looked { s.powerReset with pins := k }

theorem State.resetWith_input (s : State) (k : Pins) (d : Inp) :
    (s.resetWith k).input d = ⟨(s.input d).high, .disabled, none⟩ := tab_nth_make _ d

theorem State.resetWith_port (s : State) (k : Pins) (p : Port) :
    (s.resetWith k).port p = .fresh (s.port p).present presentMs false := by
  have fresh : State.port { s.powerReset with pins := k } p = .fresh (s.port p).present presentMs false :=
    perPort_nth_map _ _ p
  rw [resetWith, port_looked, fresh, PortState.look_detached _ rfl]

/-- Every block takes its power reset value, from whatever state. -/
theorem State.resetWith_atPowerReset (s : State) (k : Pins) : AtPowerReset (s.resetWith k) := by
  refine ⟨⟨rfl, rfl, rfl⟩, fun d => ?_, fun p => perPort_nth_all _ p, rfl, fun a => tab_nth_all _ a,
    fun c => tab_nth_all _ c, fun x => ?_, fun g => tab_nth_all _ g, fun c => tab_nth_all _ c, fun c => tab_nth_all _ c,
    fun a => tab_nth_all _ a, fun a => tab_nth_all _ a, fun p => perPort_nth_all _ p, ⟨rfl, rfl, rfl, rfl, rfl⟩,
    ⟨rfl, rfl, rfl⟩, fun p => ?_, rfl⟩
  · rw [resetWith_input]
    exact ⟨rfl, rfl⟩
  · have free : (s.resetWith k).sec x = ⟨.free, 0, []⟩ := tab_nth_all _ x
    simp [secHolder, free]
  · rw [resetWith_port]
    rfl

/-- An abandoned write tears the store (R33). -/
theorem MapUnit.storeAfterReset_eq (m : MapUnit) :
    m.storeAfterReset = if m.phase = .committing then .torn else m.store := by
  cases h : m.phase <;> simp [storeAfterReset, h]

/-- What a power reset leaves: the lines, the waiting commands and, but for a commit in flight, the store. -/
theorem State.resetWith_kept (s : State) (k : Pins) :
    (s.resetWith k).mu.store = (if s.mu.phase = .committing then .torn else s.mu.store)
      ∧ (∀ d, ((s.resetWith k).input d).high = (s.input d).high)
      ∧ (∀ p, ((s.resetWith k).port p).present = (s.port p).present) ∧ (s.resetWith k).pending = s.pending :=
  ⟨s.mu.storeAfterReset_eq, fun d => by rw [resetWith_input], fun p => by rw [resetWith_port]; rfl, rfl⟩

/-- Settles O4: both forms are the power reset of every block, with pins of their own. -/
theorem powerResetAndBrownOutResetEveryBlock : Obligations.PowerResetAndBrownOutResetEveryBlock := by
  intro s
  refine ⟨⟨s.numbered.resetWith { s.pins with resetn := false }, ?_, s.numbered.resetWith_atPowerReset _, rfl,
    s.numbered.resetWith_kept _⟩, fun mv => ⟨fun hm => ⟨s.numbered.resetWith { s.pins with
      supplyMv := mv, brownOut := true }, ?_, s.numbered.resetWith_atPowerReset _, rfl, s.numbered.resetWith_kept _⟩,
    fun hm => ?_⟩⟩
  · exact congrArg Host.Outcome.next (s.event_quiet State.resetLow rfl)
  · exact congrArg Host.Outcome.next ((if_pos hm).trans (s.event_quiet (fun u => u.enterBrownOut mv) rfl))
  · exact congrArg Host.Outcome.next (if_neg (Nat.not_lt.mpr hm))

end Sys2Proof.Machine
end

section
/-!
SUPPORT. How the notices of an event join the queues where none carries a convoy (R158).
-/

namespace Sys2Proof.Machine

open Sys2Proof

/-! ### Notices without a convoy (R158) -/

/-- Updates that each leave the state as it is. -/
theorem State.forEach_id {α : Type} (s : State) (l : List α) (f : State → α → State) (h : ∀ a ∈ l, f s a = s) :
    s.forEach l f = s :=
  forEach_inv_mem (fun t => t = s) f s l (fun t a ha ht => by rw [ht, h a ha]) rfl

/-- Where no raised notice carries a convoy, they join the queues in a free order. -/
theorem State.deliver_unaddressed (s : State) (h : ∀ r ∈ s.raised, r.notice.conv = none) : s.deliver =
    (State.anyOrder { s with raised := [] } s.raised).2.forEach
      (State.anyOrder { s with raised := [] } s.raised).1 deliverOne := by
  have addressed (c : Conv) : raisedFor s.raised (some c) = [] := by
    simp only [raisedFor, List.filter_eq_nil_iff]
    intro r hr
    simp [h r hr]
  have others : raisedFor s.raised none = s.raised := by
    simp only [raisedFor, List.filter_eq_self]
    intro r hr
    simp [h r hr]
  rw [deliver]
  dsimp only
  rw [forEach_append, forEach_id _ ((List.finRange 12).map some), forEach_cons, forEach_nil, others]
  intro c hc
  obtain ⟨c, -, rfl⟩ := List.mem_map.mp hc
  simp [addressed]

/-- The one notice of an event, without a convoy, joins its recipients' queues. -/
theorem State.deliver_single (s : State) {r : Raised} (hs : s.raised = [r]) (hc : r.notice.conv = none) :
    s.deliver = State.deliverOne { s with raised := [] } r := by
  rw [deliver_unaddressed s (by simp [hs, hc]), hs]
  simp

/-- A notice reaches each of its recipients once, and no other port (R156). -/
theorem State.deliverOne_port (s : State) (r : Raised) (hn : r.ports.Nodup) (q : Port) :
    (s.deliverOne r).port q = if q ∈ r.ports then (s.port q).notify r.notice else s.port q := by
  obtain ⟨n, ps⟩ := r
  change (s.forEach ps fun s p => s.modPort p fun q => q.notify n).port q
    = if q ∈ ps then (s.port q).notify n else s.port q
  induction ps generalizing s with
  | nil => simp
  | cons p ps ih =>
    obtain ⟨hp, hps⟩ := List.nodup_cons.mp hn
    rw [forEach_cons, ih _ hps]
    by_cases hq : q = p
    · subst hq
      simp [hp]
    · simp [hq]

/-- Notices for the same ports join the queue of each in the order in which they are taken. -/
theorem State.deliverAll_port (s : State) (l : List Raised) (ps : List Port) (hn : ps.Nodup)
    (hl : ∀ r ∈ l, r.ports = ps) (q : Port) : (s.forEach l deliverOne).port q =
      if q ∈ ps then (l.map Raised.notice).foldl PortState.notify (s.port q) else s.port q := by
  induction l generalizing s with
  | nil => simp
  | cons r l ih =>
    have ports : r.ports = ps := hl r (by simp)
    rw [forEach_cons, ih _ fun r hr => hl r (by simp [hr]), deliverOne_port _ _ (ports ▸ hn), ports]
    split
    · simp
    · rfl

theorem State.mem_attachedPorts (s : State) (q : Port) : q ∈ s.attachedPorts ↔ (s.port q).attached = true := by
  have listed : q ∈ Port.all := by cases q <;> decide
  simp [attachedPorts, listed]

theorem State.attachedPorts_nodup (s : State) : s.attachedPorts.Nodup :=
  List.Nodup.filter _ (by decide)

end Sys2Proof.Machine
end

section
/-!
The attach event: O7.
-/

namespace Sys2Proof.Machine

open Sys2Proof

namespace State

variable (s : State)

/-! ### The watch of a present line (R146) -/

/-- Time moves no seen set. -/
@[simp] theorem advance_seen (ms : Nat) : (s.advance ms).dfe.seen = s.dfe.seen := by
  unfold advance
  split <;> rfl

@[simp] theorem advance_eventNo (ms : Nat) : (s.advance ms).eventNo = s.eventNo := by
  unfold advance
  split <;> rfl

/-- Time changes neither what the map unit tells of its map, nor the stage that failed. -/
theorem advance_mapInvalid (ms : Nat) :
    (s.advance ms).mu.mapInvalid = s.mu.mapInvalid ∧ (s.advance ms).mu.failedStage = s.mu.failedStage := by
  unfold advance
  split <;> exact ⟨rfl, rfl⟩

@[simp] theorem advance_present (ms : Nat) (p : Port) : ((s.advance ms).port p).present = (s.port p).present := by
  rcases s.advance_port ms p with h | h
  · rw [h]
  · rw [h]
    rfl

/-- The watch of a line runs outside a held reset. -/
theorem advance_watchMs (ms : Nat) (p : Port) (h : s.mu.phase ≠ .held) :
    ((s.advance ms).port p).watchMs = (s.port p).watchMs - ms := by
  by_cases hms : ms = 0
  · simp [advance, hms]
  · simp [advance, hms, h, port, PortState.elapse]

theorem watchLeft_none (p : Port) (h : s.mu.phase = .held ∨ (s.port p).present = (s.port p).attached) :
    s.watchLeft p = none := if_pos h

theorem watchLeft_some (p : Port) (hh : s.mu.phase ≠ .held) (hd : (s.port p).present ≠ (s.port p).attached) :
    s.watchLeft p = some (s.port p).watchMs := if_neg (not_or.mpr ⟨hh, hd⟩)

end State

/-! ### The attach event (R24, R43, R145, R146, R155) -/

/-- The values of a port that has just attached, told of an invalid map or not. -/
def PortState.welcomed (ms : Nat) (u : MapUnit) : PortState :=
  ⟨true, ms, true, true, 2, none, .hunt, [], false,
    (if u.mapInvalid then [⟨.mapInvalid, none, none, none, none, u.failedStage⟩] else []),
    (if u.mapInvalid then .running 40 else .stopped), .idle, 0⟩

/-- The state with port `p` as given, its seen set and its aux queue empty (R43, R145). -/
def State.startedAfresh (s : State) (p : Port) (q : PortState) : State :=
  { s with
    ports := s.ports.put p q
    dfe := { s.dfe with seen := s.dfe.seen.put p [] }
    rds := { s.rds with auxQueues := s.rds.auxQueues.put p [] } }

/-- A port on a line that shows a console attaches: at the end of the event it has been told of an invalid map. -/
theorem State.attachPort_deliver (s : State) (p : Port) (hr : s.raised = []) (hp : (s.port p).present = true) :
    (s.attachPort p).deliver = s.startedAfresh p (.welcomed (s.port p).watchMs s.mu) := by
  have fresh : s.attachPort p
      = (s.startedAfresh p (.fresh (s.port p).present (s.port p).watchMs true)).raiseMapInvalid (.onePort p) := rfl
  have raised (q : PortState) : (s.startedAfresh p q).raised = [] := hr
  rw [fresh, hp, raiseMapInvalid]
  cases hm : s.mu.mapInvalid with
  | false =>
    rw [if_neg (by simp [startedAfresh, hm]), deliver_quiet _ (raised _), PortState.welcomed, hm]
    rfl
  | true =>
    rw [if_pos (by simp [startedAfresh, hm]),
      deliver_single _ (r := ⟨Notice.plain .mapInvalid s.mu.failedStage, [p]⟩) (congrArg (· ++ _) (raised _)) rfl]
    simp [deliverOne, modPort, startedAfresh, PortState.welcomed, hm, raise, PortState.notify, PortState.fresh,
      acceptsSeverity, NoticeKind.severity, Notice.plain, joinQueue, noticeRoom, hr]

/-- What time leaves of a port that is about to start afresh is its watch. -/
theorem State.advance_startedAfresh (s : State) (ms : Nat) (p : Port) (q : PortState) :
    (s.advance ms).numbered.startedAfresh p q = { s.advance ms with
      eventNo := s.eventNo + 1
      ports := (s.advance ms).ports.put p q
      dfe := { (s.advance ms).dfe with seen := s.dfe.seen.put p [] }
      rds := { (s.advance ms).rds with auxQueues := s.rds.auxQueues.put p [] } } := by
  simp [startedAfresh, numbered]

/-- The attach event of a port is due at the end of the watch of its line, and at no other timer's. -/
theorem State.attach_mem_due (s : State) (p : Port) : Instr.attach p ∈ s.due ↔
    s.mu.phase ≠ .held ∧ (s.port p).present = true ∧ (s.port p).attached = false ∧ (s.port p).watchMs = 0 := by
  have listed : p ∈ Port.all := by cases p <;> decide
  have commit : Instr.attach p ∉ s.dueCommit := by
    unfold dueCommit
    split
    · split <;> simp
    · simp
  have watch : ranOut (s.watchLeft p) = true ↔
      s.mu.phase ≠ .held ∧ (s.port p).present ≠ (s.port p).attached ∧ (s.port p).watchMs = 0 := by
    simp [ranOut, watchLeft, and_assoc]
  have port (q : Port) : Instr.attach p ∈ s.duePort q ↔
      q = p ∧ ranOut (s.watchLeft p) = true ∧ (s.port p).present = true := by
    have other : (if (s.port q).present then Instr.attach q else .detach q) = .attach p
        ↔ (s.port q).present = true ∧ q = p := by
      split <;> simp [*]
    simp only [duePort, List.mem_append, List.mem_ite_nil_right, List.mem_singleton, reduceCtorEq, and_false, false_or,
      eq_comm (a := Instr.attach p), other]
    constructor
    · rintro ⟨hw, hp, rfl⟩
      exact ⟨rfl, hw, hp⟩
    · rintro ⟨rfl, hw, hp⟩
      exact ⟨hw, hp, rfl⟩
  have only : Instr.attach p ∈ s.due ↔ ranOut (s.watchLeft p) = true ∧ (s.port p).present = true := by
    simp [due, dueLoad, commit, dueGaps, port, listed]
  rw [only, watch]
  constructor
  · rintro ⟨⟨hh, hd, hw⟩, hp⟩
    exact ⟨hh, hp, by simpa [hp] using hd, hw⟩
  · rintro ⟨hh, hp, ha, hw⟩
    exact ⟨⟨hh, by simp [hp, ha], hw⟩, hp⟩

/-- Settles O7: the change of the line moves nothing else; the end of its watch starts the port afresh. -/
theorem attachGivesAFreshPort : Obligations.AttachGivesAFreshPort := by
  intro s p
  refine ⟨fun hp => ?_, fun hp hn => ?_, fun hr hp hh ha => ?_, s.attach_mem_due p⟩
  · exact congrArg Host.Outcome.next (if_neg (by simp [hp]))
  · have none : s.watchLeft p = none := s.watchLeft_none p (hn.imp_right fun ha => hp.trans ha.symm)
    refine congrArg Host.Outcome.next ((if_pos hp).trans ?_)
    rw [none, State.atExpiry]
  · have left : s.watchLeft p = some (s.port p).watchMs := s.watchLeft_some p hh (by simp [hp, ha])
    have event := State.attachPort_deliver (s.advance (s.port p).watchMs).numbered p
      ((s.advance_raised _).trans hr) ((s.advance_present _ p).trans hp)
    have ended : ((s.advance (s.port p).watchMs).numbered.port p).watchMs = 0 :=
      (s.advance_watchMs _ p hh).trans (Nat.sub_self _)
    have told : PortState.welcomed 0 (s.advance (s.port p).watchMs).numbered.mu = .welcomed 0 s.mu := by
      obtain ⟨invalid, stage⟩ := s.advance_mapInvalid (s.port p).watchMs
      simp only [PortState.welcomed, State.numbered, invalid, stage]
    rw [ended, told, State.advance_startedAfresh] at event
    refine congrArg Host.Outcome.next ((if_pos hp).trans ?_)
    rw [left]
    exact congrArg State.looked event

end Sys2Proof.Machine
end

section
/-!
SUPPORT. The start of inputs under a map (R35, R39, R48), and what the supply comparison tells and leaves (R165).
-/

namespace Sys2Proof.Machine

open Sys2Proof

namespace State

variable (s : State)

/-! ### The start of inputs (R35, R39, R48) -/

/-- An input starts in the state that the map and the level of its line give it. -/
theorem startInput_eq (d : Inp) : s.startInput d
    = s.setCond d (s.map.startState d (s.input d).high).1 (s.map.startState d (s.input d).high).2 := by
  unfold startInput enterIdle idleInactive LayoutMap.startState
  cases he : (s.map.detectors.nth d).enabled with
  | false => simp
  | true =>
    by_cases hl : (s.input d).high = (s.map.detectors.nth d).activeHigh
    · simp [logical, hl]
    · by_cases hf : s.map.filterCode d = 0 <;> simp [logical, hl, filterOff, hf]

/-- Each input of a list starts under the map, and no other input changes. -/
theorem startInputs_input (ds : List Inp) (d : Inp) : (s.forEach ds startInput).input d =
    if d ∈ ds then
      ⟨(s.input d).high, (s.map.startState d (s.input d).high).1, (s.map.startState d (s.input d).high).2⟩
    else s.input d := by
  induction ds generalizing s with
  | nil => rfl
  | cons e ds ih =>
    have map : (s.startInput e).map = s.map := by
      rw [startInput_eq]
      rfl
    rw [forEach_cons, ih, map]
    by_cases he : d = e
    · subst he
      simp [startInput_eq, setCond]
    · simp [startInput_eq, setCond, he]

/-! ### Speeds and marks -/

/-- What depends on no speed and on no truck's radio record, a hard stop keeps. -/
theorem hardStop_keeps {β : Type} (g : State → β) (hs : ∀ (t : State) a f, g (t.modSpeed a f) = g t)
    (hr : ∀ (t : State) a f, g (t.modRadio a f) = g t) (a : Addr) : g (s.hardStop a) = g s := by
  rw [hardStop, markStop, hr, hs]

/-- What depends on no speed and on no truck's radio record, new leader targets keep (R120, R122). -/
theorem recomputeAllTargets_keeps {β : Type} (g : State → β) (hs : ∀ (t : State) a f, g (t.modSpeed a f) = g t)
    (hr : ∀ (t : State) a f, g (t.modRadio a f) = g t) : g s.recomputeAllTargets = g s := by
  have applied (t : State) (a : Addr) (n : Nat) : g (t.applyTarget a n) = g t := by
    unfold applyTarget
    split
    · exact hs t a _
    · split
      · exact t.hardStop_keeps g hs hr a
      · rfl
  refine forEach_keeps g _ (fun t c => ?_) s allConvoys
  unfold recomputeTarget retarget
  split
  · split
    · exact applied t _ _
    · rfl
  · rfl

/-- What depends on no speed and on no truck's radio record, the supply's fall keeps (R120). -/
theorem supplyLowered_keeps {β : Type} (g : State → β) (hs : ∀ (t : State) a f, g (t.modSpeed a f) = g t)
    (hr : ∀ (t : State) a f, g (t.modRadio a f) = g t) : g s.supplyLowered = g s :=
  (recomputeAllTargets_keeps _ g hs hr).trans (forEach_keeps g _ (fun t a => hs t a _) s _)

/-! ### The supply comparison (R165) -/

/-- The supply lies below the threshold and was not LOW before. -/
def fallsLow : Bool := !s.hls.supplyLow && decide (s.pins.supplyMv < thresholdMv s.map.settings.threshold)

theorem compareLow_eq : s.compareLow = if s.fallsLow then s.moveLow else s := by
  simp only [compareLow, fallsLow, Bool.and_eq_true, Bool.not_eq_true', decide_eq_true_eq]

theorem moveLow_hls : s.moveLow.hls = { s.hls with supplyLow := true } := by
  rw [moveLow, raise_hls, supplyLowered_keeps _ State.hls (fun _ _ _ => rfl) fun _ _ _ => rfl, modHls_hls]

/-- The supply state is LOW after the comparison where it was so before, or the supply is too low now. -/
theorem compareLow_hls : s.compareLow.hls = { s.hls with
    supplyLow := s.hls.supplyLow || decide (s.pins.supplyMv < thresholdMv s.map.settings.threshold) } := by
  rw [compareLow_eq, apply_ite State.hls, moveLow_hls]
  have same (b : Bool) (h : s.hls.supplyLow = b) : s.hls = { s.hls with supplyLow := b } := by rw [← h]
  cases hl : s.hls.supplyLow with
  | true => simpa [fallsLow, hl] using same true hl
  | false =>
    cases hv : decide (s.pins.supplyMv < thresholdMv s.map.settings.threshold) with
    | true => simp [fallsLow, hl, hv]
    | false => simpa [fallsLow, hv] using same false hl

theorem moveLow_raised : s.moveLow.raised = s.raised ++ [⟨Notice.plain .supplyLow, s.attachedPorts⟩] := by
  have lowered : (s.modHls fun h => { h with supplyLow := true }).supplyLowered.raised = s.raised :=
    supplyLowered_keeps _ State.raised (fun _ _ _ => rfl) fun _ _ _ => rfl
  have ports : (s.modHls fun h => { h with supplyLow := true }).supplyLowered.attachedPorts = s.attachedPorts :=
    supplyLowered_keeps _ attachedPorts (fun _ _ _ => rfl) fun _ _ _ => rfl
  rw [moveLow, raise_raised, lowered, recipients, ports]

/-- What depends on no speed, no truck's radio record, no notice raised and no supply state, the comparison keeps. -/
theorem compareLow_keeps {β : Type} (g : State → β) (hs : ∀ (t : State) a f, g (t.modSpeed a f) = g t)
    (hr : ∀ (t : State) a f, g (t.modRadio a f) = g t) (hn : ∀ (t : State) n who, g (t.raise n who) = g t)
    (hl : ∀ (t : State) b, g (t.modHls fun h => { h with supplyLow := b }) = g t) : g s.compareLow = g s := by
  rw [compareLow_eq]
  split
  · rw [moveLow, hn, supplyLowered_keeps _ g hs hr, hl]
  · rfl

end State

end Sys2Proof.Machine
end

section
/-!
The end of the load: O6.
-/

namespace Sys2Proof.Machine

open Sys2Proof

/-! ### Notices for the same ports (R158) -/

/-- Notices without a convoy, all for the same ports, join the queue of each in one order. -/
theorem State.deliver_port (s : State) (ns : List Notice) (ps : List Port) (hn : ps.Nodup)
    (hc : ∀ n ∈ ns, n.conv = none) (h : s.raised = ns.map fun n => ⟨n, ps⟩) : ∃ l : List Notice, l.Perm ns ∧
      ∀ q, s.deliver.port q = if q ∈ ps then l.foldl PortState.notify (s.port q) else s.port q := by
  have conv : ∀ r ∈ s.raised, r.notice.conv = none := by
    rw [h]
    intro r hr
    obtain ⟨n, hn, rfl⟩ := List.mem_map.mp hr
    exact hc n hn
  have perm := State.anyOrder_perm { s with raised := [] } s.raised
  obtain ⟨k, hk⟩ := State.anyOrder_state { s with raised := [] } s.raised
  refine ⟨(State.anyOrder { s with raised := [] } s.raised).1.map Raised.notice, ?_, fun q => ?_⟩
  · have notices : s.raised.map Raised.notice = ns := by simp [h, Function.comp_def]
    exact notices ▸ perm.map Raised.notice
  · rw [s.deliver_unaddressed conv, deliverAll_port _ _ ps hn, hk]
    · rfl
    · intro r hr
      have raised : r ∈ s.raised := perm.mem_iff.mp hr
      rw [h] at raised
      obtain ⟨n, -, rfl⟩ := List.mem_map.mp raised
      rfl

/-- Two lists of at most one element can be joined in two orders. -/
theorem perm_append_short {α : Type} {l a b : List α} (ha : a.length ≤ 1) (hb : b.length ≤ 1)
    (h : l.Perm (a ++ b)) : l = a ++ b ∨ l = b ++ a := by
  match a, b with
  | [], [] => exact .inl h.eq_nil
  | [], [y] => exact .inl (List.perm_singleton.mp h)
  | [x], [] => exact .inl (List.perm_singleton.mp h)
  | [x], [y] => exact List.perm_pair.mp h

/-! ### The fall-back maps (R23) -/

/-- With every section barred, the whole-map check is about profiles and settings alone (R14). -/
theorem LayoutMap.valid_of_barred (m : LayoutMap) (hb : ∀ x, (m.sections.nth x).barred = true)
    (hp : ∀ p, (m.profiles.nth p).valid = true) (hs : m.settings.valid = true) : m.valid = true := by
  simp [LayoutMap.valid, hb, hp, hs]

/-- A fall-back map is in no service: every section barred, every detector disabled, the settings of R23. -/
theorem LayoutMap.fallBack_outOfService (m n : LayoutMap) (h : n = LayoutMap.fallback ∨ n = m.repaired) :
    n.valid = true ∧ (∀ x, (n.sections.nth x).barred = true) ∧ (∀ d, (n.detectors.nth d).enabled = false)
      ∧ n.settings = ⟨⟨0, 3, 3, 3⟩, 0, 400, 4⟩ := by
  obtain ⟨profiles, settings⟩ := loaded_valid .torn true
  rcases h with rfl | rfl
  · have barred (x : Sec) : (LayoutMap.fallback.sections.nth x).barred = true := by
      rw [show LayoutMap.fallback.sections.nth x = SectionRec.fallback from tab_nth_all _ x]
      rfl
    refine ⟨LayoutMap.valid_of_barred _ barred profiles settings, barred, fun d => ?_, rfl⟩
    rw [show LayoutMap.fallback.detectors.nth d = ⟨false, true⟩ from tab_nth_all _ d]
  · have barred (x : Sec) : (m.repaired.sections.nth x).barred = true := by
      rw [show m.repaired.sections.nth x = (m.sections.nth x).repaired from tab_nth_map _ _ x]
      rfl
    refine ⟨LayoutMap.valid_of_barred _ barred (fun p => ?_) settings, barred, fun d => ?_, rfl⟩
    · rw [show m.repaired.profiles.nth p = (m.profiles.nth p).clamped from tab_nth_map _ _ p]
      exact Profile.clamped_valid _
    · rw [show m.repaired.detectors.nth d = { m.detectors.nth d with enabled := false } from tab_nth_map _ _ d]

/-- What the store gives, and the stage that failed (R22 to R24). -/
theorem MapUnit.install_loaded (u : MapUnit) (readable : Bool) :
    let v := u.install (loaded u.store readable).1 (loaded u.store readable).2
    match u.store with
    | .torn => v.map = LayoutMap.fallback ∧ v.mapInvalid = true ∧ v.failedStage = 1
    | .image m chk =>
      if readable = false ∨ chk ≠ checkValue m then
        v.map = LayoutMap.fallback ∧ v.mapInvalid = true ∧ v.failedStage = 1
      else if m.valid = true then v.map = m ∧ v.mapInvalid = false
      else v.map = m.repaired ∧ v.mapInvalid = true ∧ v.failedStage = 2 := by
  cases u.store with
  | torn => exact ⟨rfl, rfl, rfl⟩
  | image m chk =>
    simp only [loaded, Bool.or_eq_true, Bool.not_eq_true', bne_iff_ne]
    by_cases hbad : readable = false ∨ chk ≠ checkValue m
    · simp only [if_pos hbad]
      exact ⟨rfl, rfl, rfl⟩
    · by_cases hv : m.valid = true
      · simp only [if_neg hbad, if_pos hv]
        exact ⟨rfl, rfl⟩
      · simp only [if_neg hbad, if_neg hv]
        exact ⟨rfl, rfl, rfl⟩

/-- What the ports are told of the map at the end of the load (R24). -/
def MapUnit.mapNotices (u : MapUnit) : List Notice :=
  if u.mapInvalid then [⟨.mapInvalid, none, none, none, none, u.failedStage⟩] else []

/-- What the ports are told of the supply at the end of the load (R165). -/
def HaltSupervisor.supplyNotices (h : HaltSupervisor) : List Notice :=
  if h.supplyLow then [⟨.supplyLow, none, none, none, none, 0⟩] else []

namespace State

variable (s : State) (readable : Bool)

/-! ### The blocks at the end of the load (R22 to R24, R48, R96, R116, R130, R139, R165) -/

/-- The part with the map that the store gives, before its inputs start. -/
def mapLoaded : State := s.loadedWith (loaded s.mu.store readable).1 (loaded s.mu.store readable).2

/-- The part as `mapLoaded`, its inputs started. -/
def inputsStarted : State := (s.mapLoaded readable).forEach (List.finRange 64) startInput

theorem finishLoad_eq :
    s.finishLoad readable = (s.inputsStarted readable).compareLow.raiseMapInvalid .allPorts := by
  rw [finishLoad, startWith_eq]
  rfl

theorem raiseMapInvalid_keeps {β : Type} (g : State → β) (hn : ∀ (t : State) n who, g (t.raise n who) = g t)
    (who : Audience) : g (s.raiseMapInvalid who) = g s := by
  unfold raiseMapInvalid
  split
  · exact hn s _ _
  · rfl

/-- What depends on no input, notice, speed, radio record or supply state, is what the installed map makes it. -/
theorem finishLoad_reads {β : Type} (g : State → β)
    (hi : ∀ (t : State) d c timer, g (t.setCond d c timer) = g t := by intros; rfl)
    (hn : ∀ (t : State) n who, g (t.raise n who) = g t := by intros; rfl)
    (hs : ∀ (t : State) a f, g (t.modSpeed a f) = g t := by intros; rfl)
    (hr : ∀ (t : State) a f, g (t.modRadio a f) = g t := by intros; rfl)
    (hl : ∀ (t : State) b, g (t.modHls fun h => { h with supplyLow := b }) = g t := by intros; rfl) :
    g (s.finishLoad readable) = g (s.mapLoaded readable) := by
  rw [finishLoad_eq, raiseMapInvalid_keeps _ g hn, compareLow_keeps _ g hs hr hn hl]
  exact startInputs_keep _ g hi _

theorem finishLoad_input (d : Inp) : (s.finishLoad readable).input d =
    ⟨(s.input d).high, ((s.finishLoad readable).map.startState d (s.input d).high).1,
      ((s.finishLoad readable).map.startState d (s.input d).high).2⟩ := by
  rw [s.finishLoad_reads readable State.map, finishLoad_eq,
    raiseMapInvalid_keeps _ (fun t => t.input d) fun _ _ _ => rfl]
  have compared : (s.inputsStarted readable).compareLow.input d = (s.inputsStarted readable).input d :=
    compareLow_keeps _ (fun t => t.input d) (fun _ _ _ => rfl) (fun _ _ _ => rfl) (fun _ _ _ => rfl) fun _ _ => rfl
  rw [compared, inputsStarted, startInputs_input, if_pos (List.mem_finRange d)]
  rfl

theorem finishLoad_hls (h : s.hls.supplyLow = false) : (s.finishLoad readable).hls = { s.hls with
    supplyLow := decide (s.pins.supplyMv < 4600 + 100 * (s.finishLoad readable).map.settings.threshold) } := by
  have started : (s.inputsStarted readable).hls = s.hls := startInputs_hls _ _
  have map : (s.finishLoad readable).map = (s.inputsStarted readable).map :=
    (s.finishLoad_reads readable State.map).trans (startInputs_keep _ State.map (fun _ _ _ _ => rfl) _).symm
  have pins : (s.inputsStarted readable).pins = s.pins := startInputs_keep _ State.pins (fun _ _ _ _ => rfl) _
  rw [map, finishLoad_eq, raiseMapInvalid_keeps _ State.hls fun _ _ _ => rfl, compareLow_hls, started, pins, h,
    Bool.false_or]
  rfl

theorem compareLow_raised (h : s.hls.supplyLow = false) : s.compareLow.raised
    = s.raised ++ s.compareLow.hls.supplyNotices.map fun n => ⟨n, s.attachedPorts⟩ := by
  rw [compareLow_eq]
  split
  · rw [moveLow_raised, moveLow_hls]
    rfl
  · simp [HaltSupervisor.supplyNotices, h]

theorem raiseMapInvalid_raised : (s.raiseMapInvalid .allPorts).raised
    = s.raised ++ s.mu.mapNotices.map fun n => ⟨n, s.attachedPorts⟩ := by
  unfold raiseMapInvalid MapUnit.mapNotices
  split
  · rfl
  · simp

/-- The notices that the end of the load raises for every attached port: SUPPLY_LOW and MAP_INVALID. -/
theorem finishLoad_raised (hr : s.raised = []) (hl : s.hls.supplyLow = false) :
    (s.finishLoad readable).raised =
      ((s.finishLoad readable).hls.supplyNotices ++ (s.finishLoad readable).mu.mapNotices).map
        fun n => ⟨n, s.attachedPorts⟩ := by
  have started : (s.inputsStarted readable).raised = [] :=
    (startInputs_keep _ State.raised (fun _ _ _ _ => rfl) _).trans hr
  have hls : (s.inputsStarted readable).hls = s.hls := startInputs_hls _ _
  have ports : (s.inputsStarted readable).attachedPorts = s.attachedPorts :=
    startInputs_keep _ attachedPorts (fun _ _ _ _ => rfl) _
  have low := (s.inputsStarted readable).compareLow_raised (by rw [hls, hl])
  have compared : (s.inputsStarted readable).compareLow.attachedPorts = (s.inputsStarted readable).attachedPorts :=
    compareLow_keeps _ attachedPorts (fun _ _ _ => rfl) (fun _ _ _ => rfl) (fun _ _ _ => rfl) fun _ _ => rfl
  rw [finishLoad_eq, raiseMapInvalid_raised, low, raiseMapInvalid_keeps _ State.hls fun _ _ _ => rfl,
    raiseMapInvalid_keeps _ State.mu fun _ _ _ => rfl, started, compared, ports, List.nil_append, List.map_append]

/-- At the end of the load an attached port has been told SUPPLY_LOW and MAP_INVALID in one order or the other, where
they were raised, and a detached port nothing. -/
theorem endOfLoad_port (hr : s.raised = []) (hl : s.hls.supplyLow = false) (q : Port) :
    let t := s.event fun u => u.finishLoad readable
    if (s.port q).attached then
      t.port q = ((t.mu.mapNotices ++ t.hls.supplyNotices).foldl PortState.notify (s.port q)).look
        ∨ t.port q = ((t.hls.supplyNotices ++ t.mu.mapNotices).foldl PortState.notify (s.port q)).look
    else t.port q = s.port q := by
  intro t
  have mu : t.mu = (s.numbered.finishLoad readable).mu := s.event_keeps State.mu (fun _ _ _ _ => rfl) _
  have hls : t.hls = (s.numbered.finishLoad readable).hls := s.event_keeps State.hls (fun _ _ _ _ => rfl) _
  have ports : (s.numbered.finishLoad readable).ports = s.ports := finishLoad_reads _ readable State.ports
  have raised : (s.numbered.finishLoad readable).raised = ((s.numbered.finishLoad readable).hls.supplyNotices
      ++ (s.numbered.finishLoad readable).mu.mapNotices).map fun n => ⟨n, s.attachedPorts⟩ :=
    finishLoad_raised _ readable hr hl
  have port : t.port q = ((s.numbered.finishLoad readable).deliver.port q).look := port_looked _ q
  rw [mu, hls, port]
  generalize s.numbered.finishLoad readable = u at *
  have plain : ∀ n ∈ u.hls.supplyNotices ++ u.mu.mapNotices, n.conv = none := by
    simp only [List.mem_append, HaltSupervisor.supplyNotices, MapUnit.mapNotices, List.mem_ite_nil_right,
      List.mem_singleton]
    rintro n (⟨-, rfl⟩ | ⟨-, rfl⟩)
    · rfl
    · rfl
  have bad : u.mu.mapNotices.length ≤ 1 := by
    unfold MapUnit.mapNotices
    split <;> simp
  have low : u.hls.supplyNotices.length ≤ 1 := by
    unfold HaltSupervisor.supplyNotices
    split <;> simp
  obtain ⟨l, perm, told⟩ := u.deliver_port _ s.attachedPorts s.attachedPorts_nodup plain raised
  have same : u.port q = s.port q := by simp only [State.port, ports]
  simp only [told, same, mem_attachedPorts]
  split
  · rcases perm_append_short low bad perm with rfl | rfl
    · exact .inr rfl
    · exact .inl rfl
  · exact PortState.look_detached _ (by simpa using ‹¬ (s.port q).attached = true›)

/-- What depends on no input, notice, speed, radio record or supply state, the end of the load leaves as the installed
map makes it. -/
theorem endOfLoad_reads {β : Type} (g : State → β)
    (he : ∀ (t : State) k l ps, g { t with raised := l, fresh := k, ports := ps } = g t := by intros; rfl)
    (hi : ∀ (t : State) d c timer, g (t.setCond d c timer) = g t := by intros; rfl)
    (hs : ∀ (t : State) a f, g (t.modSpeed a f) = g t := by intros; rfl)
    (hr : ∀ (t : State) a f, g (t.modRadio a f) = g t := by intros; rfl)
    (hl : ∀ (t : State) b, g (t.modHls fun h => { h with supplyLow := b }) = g t := by intros; rfl) :
    g (s.event fun u => u.finishLoad readable) = g (s.numbered.mapLoaded readable) :=
  (s.event_keeps g he _).trans (finishLoad_reads _ readable g hi (fun t _ _ => he t _ _ _) hs hr hl)

/-- The end of the load reaches neither the convoys nor what lies outside the blocks. -/
theorem endOfLoad_frame : KeepsAllBut s (s.event fun u => u.finishLoad readable)
    [.mapUnit, .frontEnd, .interlock, .governor, .dispatcher, .consolePorts, .haltSupervisor] := fun b hb => by
  cases b
  case convoyTable => exact s.endOfLoad_reads readable State.cvt
  case tracker => exact s.endOfLoad_reads readable State.tracks
  case pins => exact s.endOfLoad_reads readable State.pins
  case queue => exact s.endOfLoad_reads readable State.pending
  case clock => exact s.endOfLoad_reads readable State.now
  all_goals exact absurd hb (by decide)

end State

/-- Settles O6: the load ends as one event, whose blocks read what the installed map makes them. -/
theorem endOfTheLoadStartsThePart : Obligations.EndOfTheLoadStartsThePart := by
  refine ⟨fun s readable hr hp hl => ?_, LayoutMap.fallBack_outOfService⟩
  have store := s.mu.install_loaded readable
  have mu := s.endOfLoad_reads readable State.mu
  have sil := s.endOfLoad_reads readable State.sil
  have period := s.endOfLoad_reads readable fun t => t.rds.period
  have input (d : Inp) : (s.event fun u => u.finishLoad readable).input d = (s.numbered.finishLoad readable).input d :=
    s.event_keeps (fun t => t.input d) (fun _ _ _ _ => rfl) _
  have map : (s.event fun u => u.finishLoad readable).map = (s.numbered.finishLoad readable).map :=
    s.event_keeps State.map (fun _ _ _ _ => rfl) _
  have hls := s.event_keeps State.hls (fun _ _ _ _ => rfl) fun u => u.finishLoad readable
  have seen := s.endOfLoad_reads readable fun t => t.dfe.seen
  have chord := s.endOfLoad_reads readable fun t => t.dfe.chord
  have slot := s.endOfLoad_reads readable fun t => t.rds.slotInMs
  have tick := s.endOfLoad_reads readable fun t => t.hwg.tickInMs
  refine ⟨_, congrArg Host.Outcome.next (if_pos hp), ?_, ?_, ?_, fun x => ?_, fun g => ?_, fun c => ?_, fun d => ?_,
    seen, chord, slot, tick, ?_, ?_, s.endOfLoad_frame readable, s.endOfLoad_port readable hr hl⟩
  · rw [mu]
    rfl
  · rw [State.map, mu]
    exact store
  · rw [mu]
    rfl
  · rw [State.sec, sil, State.sectionRec, mu]
    exact tab_nth_make _ x
  · rw [State.grp, sil]
    exact tab_nth_all _ g
  · rw [State.road, sil]
    exact tab_nth_all _ c
  · rw [input, map]
    exact s.numbered.finishLoad_input readable d
  · rw [period, State.map, mu]
    rfl
  · rw [hls, map]
    exact s.numbered.finishLoad_hls readable hl

end Sys2Proof.Machine
end

section
/-!
EDIT_GROUP: O14.
-/

namespace Sys2Proof.Machine

open Sys2Proof

/-! ### Ascending lists (R11, R30) -/

theorem insertNat_eq (n : Nat) (l : List Nat) : insertNat n l = l.orderedInsert (· ≤ ·) n := by
  induction l with
  | nil => rfl
  | cons m l ih => simp only [insertNat, List.orderedInsert, ih]

/-- The model's ascending order is insertion sort. -/
theorem ascending_eq (l : List Nat) : ascending l = l.insertionSort (· ≤ ·) := by
  induction l with
  | nil => rfl
  | cons n l ih =>
    rw [List.insertionSort_cons, ← ih, ← insertNat_eq]
    rfl

theorem ascending_perm (l : List Nat) : (ascending l).Perm l := ascending_eq l ▸ List.perm_insertionSort _ l

/-- A list without repeats ascends strictly when sorted. -/
theorem ascending_pairwise {l : List Nat} (h : l.Nodup) : (ascending l).Pairwise (· < ·) := by
  have sorted : (ascending l).Pairwise (· ≤ ·) := ascending_eq l ▸ List.pairwise_insertionSort _ l
  have distinct : (ascending l).Pairwise (· ≠ ·) := (ascending_perm l).nodup_iff.mpr h
  exact (sorted.and distinct).imp fun ⟨hle, hne⟩ => Nat.lt_of_le_of_ne hle hne

/-- A list in order stays as it is. -/
theorem ascending_of_pairwise {l : List Nat} (h : l.Pairwise (· < ·)) : ascending l = l := by
  rw [ascending_eq]
  exact (h.imp Nat.le_of_lt).insertionSort_eq

theorem noRepeats_iff (l : List Nat) : noRepeats l = true ↔ l.Nodup := by
  induction l with
  | nil => simp [noRepeats]
  | cons n l ih => simp [noRepeats, ih]

/-! ### The body of EDIT_GROUP (R30) -/

theorem grpArg_eq_some (b : Byte) (g : Grp) : grpArg b = some g ↔ b.toNat = g.1 := by
  unfold grpArg
  split
  · simp [Fin.ext_iff]
  · have := g.2
    simp only [reduceCtorEq, false_iff]
    omega

theorem grpArg_eq_none (b : Byte) : grpArg b = none ↔ 7 < b.toNat := by
  unfold grpArg
  split
  · simp only [reduceCtorEq, false_iff]
    omega
  · simp only [true_iff]
    omega

/-- The numbers of a group body fit a list: at most 8, all sections, none twice (R30). -/
def FitsGroup (rest : List Byte) : Prop := rest.length ≤ 8 ∧ (∀ n ∈ rest, n.toNat < 48) ∧ rest.Nodup

theorem fitsGroup_iff (rest : List Byte) : (rest.length ≤ 8 && (rest.map BitVec.toNat).all (fun n => decide (n < 48))
    && noRepeats (rest.map BitVec.toNat)) = true ↔ FitsGroup rest := by
  have nodup : (rest.map BitVec.toNat).Nodup ↔ rest.Nodup := List.nodup_map_iff fun _ _ => BitVec.eq_of_toNat_eq
  simp [FitsGroup, noRepeats_iff, nodup, and_assoc]

/-- A group body gives a group and a list that fits, in ascending order. -/
theorem groupEntry_eq_some {body : List Byte} {g : Grp} {l : List Nat} (h : groupEntry body = some (g, l)) :
    ∃ b rest, body = b :: rest ∧ b.toNat = g.1 ∧ FitsGroup rest ∧ l = ascending (rest.map BitVec.toNat) := by
  unfold groupEntry at h
  split at h
  · cases h
  · rename_i b rest
    split at h
    · rename_i g' hg
      split at h
      · rename_i hfits
        obtain ⟨rfl, rfl⟩ := Prod.mk.inj (Option.some.inj h)
        exact ⟨b, rest, rfl, (grpArg_eq_some b g').mp hg, (fitsGroup_iff rest).mp hfits, rfl⟩
      · cases h
    · cases h

/-- A body without a group, or whose numbers do not fit, is no entry. -/
theorem groupEntry_eq_none (b : Byte) (rest : List Byte) (h : 7 < b.toNat ∨ ¬ FitsGroup rest) :
    groupEntry (b :: rest) = none := by
  simp only [groupEntry]
  split
  · rename_i g hg
    have group : ¬ 7 < b.toNat := fun hb => by simp [(grpArg_eq_none b).mpr hb] at hg
    exact if_neg fun hfits => (h.resolve_left group) ((fitsGroup_iff rest).mp hfits)
  · rfl

/-- The list of an entry holds the body's numbers, ascends, and fits a group record. -/
theorem groupEntry_list {rest : List Byte} (h : FitsGroup rest) :
    let l := ascending (rest.map BitVec.toNat)
    l.Pairwise (· < ·) ∧ (∀ n, n ∈ l ↔ ∃ e ∈ rest, e.toNat = n) ∧ (GroupList.of l).numbers = l := by
  obtain ⟨room, -, distinct⟩ := h
  have perm := ascending_perm (rest.map BitVec.toNat)
  have nodup : (rest.map BitVec.toNat).Nodup := distinct.map fun _ _ => BitVec.eq_of_toNat_eq
  refine ⟨ascending_pairwise nodup, fun n => ?_, List.take_of_length_le ?_⟩
  · rw [perm.mem_iff, List.mem_map]
  · rwa [perm.length_eq, List.length_map]

/-! ### EDIT_GROUP (R30) -/

theorem secOf_eq_some (n : Nat) (x : Sec) : secOf n = some x ↔ n = x.1 := by
  unfold secOf
  split
  · simp [Fin.ext_iff]
  · have := x.2
    simp only [reduceCtorEq, false_iff]
    omega

theorem State.allBarred_iff (s : State) (l : List Nat) :
    s.allBarred l = true ↔ ∀ x : Sec, x.1 ∈ l → (s.sec x).dyn = .barred := by
  simp only [allBarred, List.all_eq_true, List.mem_filterMap, secOf_eq_some, beq_iff_eq]
  exact ⟨fun h x hx => h x ⟨x.1, hx, rfl⟩, fun h x ⟨n, hn, hx⟩ => h x (hx ▸ hn)⟩

/-- The state with the list of group `g` replaced. -/
def State.withGroup (s : State) (g : Grp) (l : List Nat) : State :=
  { s with mu := { s.mu with map := { s.map with groups := s.map.groups.put g (.of l) } } }

theorem State.withGroup_entryBytes (s : State) (g : Grp) (l : List Nat) (hl : l.Pairwise (· < ·))
    (hn : (GroupList.of l).numbers = l) :
    (s.withGroup g l).map.entryBytes (.grp g) = [byte g.1, byte l.length] ++ l.map byte := by
  have list : (s.withGroup g l).map.groupList g = l :=
    (congrArg GroupList.numbers (tab_nth_put_self s.map.groups g (.of l))).trans hn
  rw [LayoutMap.entryBytes, LayoutMap.groupBytes, list, ascending_of_pairwise hl]

theorem State.editGroup_none (s : State) (body : List Byte) (hready : s.mu.phase = .ready)
    (h : groupEntry body = none) : s.editGroup body = s.refusal .badArg := by
  simp [editGroup, mapRequest, hready, h]

theorem State.editGroup_some (s : State) {body : List Byte} {g : Grp} {l : List Nat} (hready : s.mu.phase = .ready)
    (h : groupEntry body = some (g, l)) : s.editGroup body =
      if (s.grp g).holder = none ∧ ∀ x : Sec, x.1 ∈ s.map.groupList g ++ l → (s.sec x).dyn = .barred then
        ⟨s.withGroup g l, some ⟨.ok, (s.withGroup g l).map.entryBytes (.grp g)⟩⟩
      else s.refusal .badState := by
  have barred : (∀ x : Sec, x.1 ∈ s.map.groupList g ++ l → (s.sec x).dyn = .barred)
      ↔ s.allBarred (s.map.groupList g) = true ∧ s.allBarred l = true := by
    simp only [allBarred_iff, List.mem_append, or_imp, forall_and]
  simp only [editGroup, mapRequest, hready, h, barred, Bool.and_eq_true, Option.isNone_iff_eq_none, and_assoc,
    reduceCtorEq, if_false]
  rfl

/-- Settles O14: the body's numbers are sorted, and the list is replaced where group and sections allow it. -/
theorem editGroupReplacesTheList : Obligations.EditGroupReplacesTheList := by
  intro s p tag body hs hl hready
  refine ⟨fun h => ?_, fun g l h => ?_⟩
  · have none : groupEntry body = none := by
      rcases h with rfl | ⟨b, rest, rfl, h⟩
      · rfl
      · refine groupEntry_eq_none b rest (h.imp_right fun h hfits => ?_)
        obtain ⟨room, sections, distinct⟩ := hfits
        rcases h with h | ⟨n, hn, h⟩ | h
        · exact absurd room (Nat.not_le.mpr h)
        · exact absurd (sections n hn) (by omega)
        · exact h distinct
    exact congrArg Host.Outcome.next (s.serve_refused p _ tag _ hs (fun _ => hl) .badArg []
      ((s.heard p).editGroup_none body hready none))
  · obtain ⟨b, rest, hbody, hb, hfits, rfl⟩ := groupEntry_eq_some h
    obtain ⟨sorted, mem, numbers⟩ := groupEntry_list hfits
    have block := (s.heard p).editGroup_some hready h
    rw [State.withGroup_entryBytes _ _ _ sorted numbers] at block
    refine ⟨⟨b, rest, hbody, hb, sorted, mem⟩, numbers, ?_⟩
    split
    · rename_i hc
      exact congrArg Host.Outcome.next (s.serve_answered p _ tag _ hs (fun _ => hl) (fun u => u.withGroup g _) .ok _
        (block.trans (if_pos hc)) rfl (fun _ _ => rfl) hs.1 rfl rfl)
    · rename_i hc
      exact congrArg Host.Outcome.next (s.serve_refused p _ tag _ hs (fun _ => hl) .badState []
        (block.trans (if_neg hc)))

end Sys2Proof.Machine
end

section
/-!
The commit of the working map to the map store: O16.
-/

namespace Sys2Proof.Machine

open Sys2Proof

/-! ### COMMIT_MAP and the end of a commit (R32) -/

theorem State.commitMap_body (s : State) (p : Port) (tag : Byte) {body : List Byte} (hready : s.mu.phase = .ready)
    (h : body ≠ []) : s.commitMap p tag body = s.refusal .badArg := by
  simp [commitMap, mapRequest, hready, h]

theorem State.commitMap_begins (s : State) (p : Port) (tag : Byte) (hready : s.mu.phase = .ready) :
    s.commitMap p tag [] = ⟨s.beginCommit p tag, none⟩ := by
  simp [commitMap, mapRequest, hready]

/-- The acceptance of a COMMIT_MAP, after which no reply waits and no notice is raised. -/
theorem State.beginCommit_heard (s : State) (p : Port) (tag : Byte) : (s.heard p).beginCommit p tag = { s with
    eventNo := s.eventNo + 1
    mu := { s.mu with phase := .committing, commit := some ⟨p, tag, s.map, 400⟩ }
    ports := s.ports.put p { s.port p with receiver := .hunt, reserved := true } } := by
  simp [beginCommit, heard, modMu, modPort, port, map, commitMs]

theorem readBackAgrees_eq (snapshot : LayoutMap) (back : StoreContents) :
    readBackAgrees snapshot back = decide (back = .image snapshot (checkValue snapshot)) := rfl

/-- The reply of a commit takes the reserved place, where there is one. -/
theorem State.commitReply_eq (s : State) (p : Port) (tag : Byte) (code : ReplyCode) :
    s.commitReply p tag code = { s with
      ports := if (s.port p).reserved then
          s.ports.put p { s.port p with
            reserved := false, replies := (s.port p).replies ++ [⟨0x87, tag, [byte code.code]⟩] }
        else s.ports } := by
  unfold commitReply
  split
  · simp [reply, modPort, replyMessage, port]
  · rfl

/-- The end of a commit: READY again with what was read back, map-invalid cleared where it agrees with the snapshot, and
the reply. -/
theorem State.finishCommit_eq (s : State) (k : Commit) (back : StoreContents) :
    let agrees := decide (back = .image k.snapshot (checkValue k.snapshot))
    s.finishCommit k back = { s with
      mu := { s.mu with
        phase := .ready, commit := none, store := back, mapInvalid := s.mu.mapInvalid && !agrees }
      ports := if (s.port k.port).reserved then
          s.ports.put k.port { s.port k.port with
            reserved := false
            replies := (s.port k.port).replies ++ [⟨0x87, k.tag, [if agrees then 0x00 else 0x0B]⟩] }
        else s.ports } := by
  intro agrees
  have code : byte (if agrees then ReplyCode.ok else .storeFailed).code = if agrees then 0x00 else 0x0B := by
    cases agrees <;> rfl
  rw [← code]
  exact State.commitReply_eq _ k.port k.tag _

/-- Settles O16: the acceptance and the end of a commit are one event each, whose effects are written out. -/
theorem commitsEndByTheirReadBack : Obligations.CommitsEndByTheirReadBack := by
  refine ⟨fun s p tag hs hl hready => ⟨fun body hb => ?_, ?_⟩, fun s back h => ?_, fun s k back hr hc hk => ?_⟩
  · exact congrArg Host.Outcome.next (s.serve_refused p _ tag _ hs (fun _ => hl) .badArg []
      ((s.heard p).commitMap_body p tag hready hb))
  · refine congrArg Host.Outcome.next ((s.serve_owner p _ tag _ hs fun _ => hl).trans ?_)
    rw [(s.heard p).commitMap_begins p tag hready]
    change State.looked ((s.heard p).beginCommit p tag).deliver = _
    rw [s.beginCommit_heard]
    exact congrArg State.looked (State.deliver_quiet _ hs.1)
  · refine congrArg Host.Outcome.next ?_
    unfold State.commitEnd
    split
    · rename_i k hk
      exact if_neg (h.resolve_right (by simp [hk]))
    · rfl
  · have event : s.commitEnd back = s.event fun u => u.finishCommit k back := by
      rw [State.commitEnd, hk]
      exact if_pos hc
    exact congrArg Host.Outcome.next (event.trans (s.event_eq (s.numbered.finishCommit_eq k back) hr))

end Sys2Proof.Machine
end

section
/-!
The queries: O17.
-/

namespace Sys2Proof.Machine

open Sys2Proof

/-! ### Bytes for the inputs (R44) -/

/-- The weights of the set bits of a number are the number. -/
theorem sum_flagBits (n : Nat) (g : Fin n → Bool) :
    ((List.finRange n).map fun i => flagBit (g i) i.1).sum = Nat.ofBits g := by
  induction n with
  | zero => rfl
  | succ n ih =>
    have shifted (i : Fin n) : flagBit (g i.succ) i.succ.1 = 2 * flagBit (g i.succ) i.1 := by
      cases hg : g i.succ <;> simp [flagBit, Nat.pow_succ, Nat.mul_comm]
    have first : flagBit (g 0) 0 = (g 0).toNat := by cases hg : g 0 <;> rfl
    rw [List.finRange_succ, List.map_cons, List.sum_cons, List.map_map, Nat.ofBits_succ, ← ih]
    simp only [Function.comp_def, shifted, List.sum_map_mul_left]
    simp [first, Nat.add_comm]

/-- Input d stands at bit d − 8b of byte b. -/
theorem inputBytes_bit (f : Inp → Bool) (d : Inp) : (inputBytes f).length = 8
    ∧ ((inputBytes f).getD (d.1 / 8) 0).toNat.testBit (d.1 % 8) = f d := by
  have hd := d.2
  have hb : d.1 / 8 < 8 := by omega
  have length : (inputBytes f).length = 8 := by simp [inputBytes]
  have row : (inputBytes f).getD (d.1 / 8) 0
      = byte (Nat.ofBits fun i : Fin 8 => f ⟨8 * (d.1 / 8) + i.1, by omega⟩) := by
    rw [List.getD_eq_getElem _ _ (by omega), ← sum_flagBits]
    simp [inputBytes]
  refine ⟨length, ?_⟩
  rw [row, byte_toNat (Nat.ofBits_lt_two_pow _), Nat.testBit_ofBits_lt _ _ (Nat.mod_lt _ (by decide))]
  exact congrArg f (Fin.ext (Nat.div_add_mod d.1 8))

/-! ### What the payloads show (R69, R95, R151) -/

theorem secArg_eq_some (b : Byte) (x : Sec) : secArg b = some x ↔ b.toNat = x.1 := secOf_eq_some _ _

theorem secArg_eq_none (b : Byte) (h : 47 < b.toNat) : secArg b = none := dif_neg (by omega)

theorem byte_of_secArg {b : Byte} {x : Sec} (h : secArg b = some x) : byte x.1 = b := by
  rw [← (secArg_eq_some b x).mp h, byte, BitVec.ofNat_toNat, BitVec.setWidth_eq]

theorem holderCode_eq (o : Option Conv) : holderCode o = o.elim 0 convoyNumber := by cases o <;> rfl

theorem byte_flagBit (v : Bool) : byte (flagBit v 0) = if v then 1 else 0 := by cases v <;> rfl

/-- The group part of a section's status is that of the group the section names, or 0xFF and no entry (R95). -/
theorem State.groupPart_eq (s : State) (x : Sec) : s.groupPart x =
    match (s.sectionRec x).group with
    | none => [0xFF, 0, 0]
    | some g => [byte g.1, byte ((s.grp g).holder.elim 0 convoyNumber), byte (s.grp g).queue.length]
      ++ (s.grp g).queue.map fun e => byte (convoyNumber e.conv + 16 * e.level) := by
  unfold groupPart
  cases (s.sectionRec x).group with
  | none => rfl
  | some g => simp [queueBytes, holderCode_eq]

theorem State.heard_named (s : State) (p : Port) (b : Byte) : (s.heard p).named p b = s.named p b := by
  simp [named, heard, port]

/-! ### The owner blocks of the queries (R26, R44, R69, R95) -/

section
variable (s : State)

theorem State.readMap_some {body : List Byte} {e : MapEntry} (hready : s.mu.phase = .ready)
    (h : mapEntryArg body = some e) : s.readMap body = s.accepted (s.map.entryBytes e) := by
  simp [readMap, mapRequest, hready, h]

theorem State.readMap_none {body : List Byte} (hready : s.mu.phase = .ready) (h : mapEntryArg body = none) :
    s.readMap body = s.refusal .badArg := by simp [readMap, mapRequest, hready, h]

/-- A QUERY_CONVOY needs no ownership, and its port's last convoy stays (R150). -/
theorem State.queryConvoy_named {p : Port} {b : Byte} {c : Conv} (h : s.named p b = some c) :
    (s.forConvoy p .querying [b] fun s c rest => s.bare rest fun s => s.queryConvoy c)
      = s.accepted (s.fullConvoy c) := by
  simp [forConvoy, h, notOwner, bare, queryConvoy]

theorem State.querySection_some {b : Byte} {x : Sec} (h : secArg b = some x) :
    s.querySection [b] = s.accepted (s.sectionStatus x) := by simp [querySection, onlySection, h]

theorem State.querySection_none {body : List Byte} (h : ∀ b, body = [b] → 47 < b.toNat) :
    s.querySection body = s.refusal .badArg := by
  have none : onlySection body = none := by
    unfold onlySection
    split
    · exact secArg_eq_none _ (h _ rfl)
    · rfl
  simp [querySection, none]

/-- What QUERY_SECTION shows of section `x`, in the layout of Table 9.9 (R95). -/
theorem State.sectionStatus_eq (x : Sec) : s.sectionStatus x =
    [byte x.1, byte (s.sec x).dyn.code, byte ((s.secHolder x).elim 0 convoyNumber), byte (s.sec x).stock]
      ++ twoBytes (s.sec x).dyn.leftMs ++ byte (s.sec x).queue.length
      :: (s.sec x).queue.map (fun e => byte (convoyNumber e.conv + 16 * e.level)) ++ s.groupPart x := by
  simp [sectionStatus, holderCode_eq, queueBytes]

end

/-- A query that its owner block accepts: the whole request is the answer, and nothing else changes. -/
theorem State.serve_query (s : State) (p : Port) (k : Kind) (tag : Byte) (owner : State → Result) (h : Serves s p)
    (hl : k.levelZero = false) (hk : k.haltPayload = false) (payload : List Byte)
    (ho : owner (s.heard p) = (s.heard p).accepted payload) :
    s.serve p k tag owner = s.replied p (s.port p).lastConvoy (k.code ||| 0x80) tag .ok payload :=
  s.serve_answered p k tag owner h (fun hz => by simp [hl] at hz) id .ok payload ho hk (fun _ _ => rfl) h.1 rfl rfl

/-- A query that its owner block refuses. -/
theorem State.serve_queryRefused (s : State) (p : Port) (k : Kind) (tag : Byte) (owner : State → Result)
    (h : Serves s p) (hl : k.levelZero = false) (hk : k.haltPayload = false)
    (ho : owner (s.heard p) = (s.heard p).refusal .badArg) :
    s.serve p k tag owner = s.replied p (s.port p).lastConvoy (k.code ||| 0x80) tag .badArg [] := by
  rw [s.serve_refused p k tag owner h (fun hz => by simp [hl] at hz) .badArg [] ho, Kind.tail, hk]
  rfl

/-- Settles O17: each query's owner block answers by what the generic checks leave as it stands. -/
theorem queriesAnswerByWhatStands : Obligations.QueriesAnswerByWhatStands := by
  refine ⟨fun s p tag hs => ⟨fun hready body => ⟨fun e h => ?_, fun h => ?_⟩, fun b c h => ?_, fun b x h => ?_,
    fun body h => ?_, ?_, fun body h => ?_⟩, inputBytes_bit⟩
  · exact congrArg Host.Outcome.next (s.serve_query p _ tag _ hs rfl rfl _ ((s.heard p).readMap_some hready h))
  · exact congrArg Host.Outcome.next (s.serve_queryRefused p _ tag _ hs rfl rfl ((s.heard p).readMap_none hready h))
  · exact congrArg Host.Outcome.next (s.serve_query p _ tag _ hs rfl rfl _
      ((s.heard p).queryConvoy_named ((s.heard_named p b).trans h)))
  · have block := (s.heard p).querySection_some h
    rw [State.sectionStatus_eq, byte_of_secArg h, State.groupPart_eq] at block
    exact congrArg Host.Outcome.next (s.serve_query p _ tag _ hs rfl rfl _ block)
  · exact congrArg Host.Outcome.next (s.serve_queryRefused p _ tag _ hs rfl rfl ((s.heard p).querySection_none h))
  · have chord : byte (flagBit s.dfe.chord 0) = if s.dfe.chord then 1 else 0 := byte_flagBit _
    rw [← chord]
    exact congrArg Host.Outcome.next (s.serve_answered p _ tag _ hs
      (fun hz => absurd hz Bool.false_ne_true) (fun u => u.clearSeen p) .ok _ rfl rfl
      (fun _ _ => rfl) hs.1 rfl rfl)
  · exact congrArg Host.Outcome.next (s.serve_queryRefused p _ tag _ hs rfl rfl (by simp [State.queryDetectors, h]))

end Sys2Proof.Machine
end

section
/-!
SUPPORT. The effect of a request whose event may raise notices; the chord and the supply comparison in full.
-/

namespace Sys2Proof.Machine

open Sys2Proof

/-! ### Requests whose event raises notices (R149, R156, R158) -/

/-- Where the owner block answers with state `u` and leaves the ports alone, the event ends in `u` but for what the
ports hold: the answer, and the notices that `u` has raised. -/
theorem State.serve_notices (s : State) (p : Port) (k : Kind) (tag : Byte) (owner : State → Result) (h : Serves s p)
    (hl : k.levelZero = true → s.level p = 0) (u : State) (code : ReplyCode) (payload : List Byte)
    (ho : owner (s.heard p) = ⟨u, some ⟨code, payload⟩⟩) (hk : k.haltPayload = false)
    (hp : u.ports = (s.heard p).ports) :
    ∃ n ps, s.serve p k tag owner = { u with raised := [], fresh := n, ports := ps }
      ∧ Answers s { u with raised := [], fresh := n, ports := ps } p (s.port p).lastConvoy (k.code ||| 0x80) tag code
        payload := by
  have answered (q : Port) : (u.reply p k.code tag ⟨code, payload⟩).port q =
      if q = p then (s.port p).after (s.port p).lastConvoy (k.code ||| 0x80) tag code payload else s.port q := by
    by_cases hq : q = p
    · subst hq
      rw [reply, port_modPort_self, port, hp]
      simp [heard, modPort, PortState.after, replyMessage, port]
    · rw [reply, port_modPort_ne _ _ hq, port, hp, if_neg hq]
      exact port_modPort_ne _ _ hq
  have quiet := (u.reply p k.code tag ⟨code, payload⟩).deliver_raised
  obtain ⟨n, l, ps, event, told⟩ := (u.reply p k.code tag ⟨code, payload⟩).deliver_differs
  rw [event] at quiet
  refine ⟨n, ps.map PortState.look, ?_, fun q => ?_⟩
  · rw [serve_owner s p k tag owner h hl, ho]
    simp only [Result.send, Kind.tail, hk, Bool.false_eq_true, if_false, List.append_nil]
    rw [event, show l = [] from quiet]
    rfl
  · obtain ⟨ns, fl, port⟩ := told q
    rw [answered q] at port
    refine ⟨ns, fl, ?_⟩
    rw [← port]
    exact perPort_nth_map _ _ q

theorem State.heard_frame (s : State) (p : Port) : KeepsAllBut s (s.heard p) [.consolePorts] := fun b hb => by
  have frame := s.numbered.modPort_frame p (fun q => { q with receiver := .hunt }) b hb
  cases b <;> exact frame

/-- What the owner block leaves alone, the whole request leaves alone, the ports apart. -/
theorem KeepsAllBut.served {s u : State} {p : Port} {bs : List Block} (h : KeepsAllBut (s.heard p) u bs) (n : Nat)
    (ps : PerPort PortState) : KeepsAllBut s { u with raised := [], fresh := n, ports := ps } (.consolePorts :: bs) :=
  fun b hb => by
    obtain ⟨hports, hbs⟩ := not_or.mp (mt List.mem_cons.mpr hb)
    have heard := s.heard_frame p b (by simpa using hports)
    have owner := h b hbs
    cases b
    case consolePorts => exact absurd rfl hports
    all_goals exact Eq.trans owner heard

namespace State

variable (s : State)

/-! ### The chord (R46, R47, R160) -/

theorem updateChord_same (h : s.chordComplete = s.dfe.chord) : s.updateChord = s := by
  cases hd : s.dfe.chord <;> simp [updateChord, h, hd]

theorem updateChord_asserted (hc : s.chordComplete = true) (hd : s.dfe.chord = false) :
    s.updateChord = causePresent { s with dfe := { s.dfe with chord := true } } .chord := by
  simp [updateChord, hc, hd]

theorem updateChord_released (hc : s.chordComplete = false) (hd : s.dfe.chord = true) :
    s.updateChord = causeAbsent { s with dfe := { s.dfe with chord := false } } .chord := by
  simp [updateChord, hc, hd]

/-- The chord state follows the chord. -/
theorem updateChord_dfe : s.updateChord.dfe = { s.dfe with chord := s.chordComplete } := by
  cases hc : s.chordComplete with
  | false =>
    cases hd : s.dfe.chord with
    | false => rw [s.updateChord_same (hc.trans hd.symm), ← hd]
    | true => rw [s.updateChord_released hc hd, causeAbsent, modHls_dfe]
  | true =>
    cases hd : s.dfe.chord with
    | false => rw [s.updateChord_asserted hc hd, causePresent_dfe]
    | true => rw [s.updateChord_same (hc.trans hd.symm), ← hd]

/-- A cause that was absent halts the part, if it was not HALTED. -/
theorem causePresent_hls (c : Cause) (h : s.hls.has c = false) :
    (s.causePresent c).hls = { s.hls.put c true with halted := true } := by
  rw [causePresent, if_neg (by simp [h])]
  dsimp only
  split
  · rename_i hh
    have put : (s.hls.put c true).halted = true := hh
    rw [raise_hls, modHls_hls]
    cases c <;> simp_all [HaltSupervisor.put]
  · rw [raise_hls, enterHalt_hls, modHls_hls]

/-- The CHORD cause follows the chord, and a chord newly asserted halts the part. -/
theorem updateChord_hls (h : s.hls.chord = s.dfe.chord) : s.updateChord.hls = { s.hls with
    chord := s.chordComplete, halted := s.hls.halted || (s.chordComplete && !s.dfe.chord) } := by
  cases hc : s.chordComplete with
  | false =>
    cases hd : s.dfe.chord with
    | false =>
      rw [s.updateChord_same (hc.trans hd.symm), ← hd, ← h]
      simp
    | true =>
      rw [s.updateChord_released hc hd]
      simp [causeAbsent, HaltSupervisor.put]
  | true =>
    cases hd : s.dfe.chord with
    | false =>
      rw [s.updateChord_asserted hc hd, causePresent_hls _ .chord (by exact h.trans hd)]
      simp [HaltSupervisor.put]
    | true =>
      rw [s.updateChord_same (hc.trans hd.symm), ← hd, ← h]
      simp

/-- Where no chord is newly complete, the chord state and the CHORD cause follow it, and nothing else changes. -/
theorem updateChord_unhalted (h : s.hls.chord = s.dfe.chord) (hc : s.chordComplete = true → s.dfe.chord = true) :
    s.updateChord = { s with
      dfe := { s.dfe with chord := s.chordComplete }, hls := { s.hls with chord := s.chordComplete } } := by
  by_cases hd : s.chordComplete = s.dfe.chord
  · have dfe : { s.dfe with chord := s.chordComplete } = s.dfe := by rw [hd]
    have hls : { s.hls with chord := s.chordComplete } = s.hls := by rw [hd, ← h]
    rw [s.updateChord_same hd, dfe, hls]
  · have incomplete : s.chordComplete = false := Bool.eq_false_iff.mpr fun hk => hd (hk.trans (hc hk).symm)
    have asserted : s.dfe.chord = true := by simpa [incomplete] using hd
    rw [s.updateChord_released incomplete asserted, incomplete]
    rfl

theorem causePresent_period (c : Cause) : (s.causePresent c).rds.period = s.rds.period := by
  have stops (t : State) (l : List Addr) : (t.forEach l hardStop).rds.period = t.rds.period :=
    forEach_keeps (fun t => t.rds.period) hardStop (fun _ _ => rfl) t l
  have halts (t : State) : t.enterHalt.rds.period = t.rds.period := by
    rw [enterHalt, allUnitsDown_rds, modRds_rds, stops, modHls_rds]
  unfold causePresent
  split
  · rfl
  · dsimp only
    rw [raise_rds]
    split
    · rfl
    · exact halts _

theorem updateChord_period : s.updateChord.rds.period = s.rds.period := by
  unfold updateChord
  split
  · rw [causePresent_period]
  · split <;> rfl

/-! ### The supply comparison (R165) -/

theorem moveNormal_hls : s.moveNormal.hls = { s.hls with supplyLow := false } := by
  rw [moveNormal, raise_hls, recomputeAllTargets_keeps _ State.hls (fun _ _ _ => rfl) fun _ _ _ => rfl, modHls_hls]

/-- A LOW supply is LOW until it lies 150 mV above the threshold; a NORMAL one until it falls below the threshold. -/
theorem compareSupply_hls : s.compareSupply.hls = { s.hls with
    supplyLow := if s.hls.supplyLow then
        decide (s.pins.supplyMv < thresholdMv s.map.settings.threshold + 150)
      else decide (s.pins.supplyMv < thresholdMv s.map.settings.threshold) } := by
  unfold compareSupply
  cases hl : s.hls.supplyLow with
  | false => simp [compareLow_hls, hl]
  | true =>
    have same : s.hls = { s.hls with supplyLow := true } := by rw [← hl]
    simp only [if_true, compareNormal, hl, true_and]
    split
    · rename_i hv
      simp [moveNormal_hls, Nat.not_lt.mpr hv]
    · rename_i hv
      simpa [Nat.not_le.mp hv] using same

theorem compareSupply_period : s.compareSupply.rds.period = s.rds.period := by
  have targets (t : State) : t.recomputeAllTargets.rds.period = t.rds.period :=
    t.recomputeAllTargets_keeps (fun t => t.rds.period) (fun _ _ _ => rfl) fun _ _ _ => rfl
  unfold compareSupply
  split
  · unfold compareNormal moveNormal
    split
    · rw [raise_rds, targets, modHls_rds]
    · rfl
  · exact compareLow_keeps s (fun t => t.rds.period) (fun _ _ _ => rfl) (fun _ _ _ => rfl) (fun _ _ _ => rfl)
      fun _ _ => rfl

end State

end Sys2Proof.Machine
end

section
/-!
EDIT_DETECTOR: O13.
-/

namespace Sys2Proof.Machine

open Sys2Proof

/-! ### The reported inputs (R29) -/

theorem mem_inputsOfFilter (f : FilterNo) (e : Inp) : e ∈ inputsOfFilter f ↔ filterOf e = f := by simp [inputsOfFilter]

/-- An input is reported where its setting differs, or the filter code of its group does. -/
theorem LayoutMap.mem_reported (m : LayoutMap) (d : Inp) (t : DetectorSetting) (code : Fin 8) (e : Inp) :
    e ∈ m.reported d t code ↔
      (e = d ∧ t ≠ m.detectors.nth d) ∨ (filterOf e = filterOf d ∧ code ≠ m.filterCode d) := by
  unfold reported
  by_cases hc : m.filterCode d = code
  · subst hc
    by_cases ht : m.detectors.nth d = t
    · subst ht
      simp
    · simp [ht, Ne.symm ht]
  · have group : e = d → filterOf e = filterOf d := congrArg filterOf
    simp only [bne_iff_ne, ne_eq, hc, not_false_eq_true, if_true, mem_inputsOfFilter, Ne.symm hc, and_true]
    tauto

namespace State

variable (s : State)

/-! ### The restart of the reported inputs (R39, R46) -/

theorem startInputs_frame (ds : List Inp) : KeepsAllBut s (s.forEach ds startInput) [.frontEnd] :=
  .forEach (fun t d => by
    rw [startInput_eq]
    exact t.modInput_frame d _) s ds

/-- The working map with the setting of input `d` and the filter code of its group replaced. -/
def detectorMap (d : Inp) (t : DetectorSetting) (code : Fin 8) : LayoutMap :=
  { s.map with detectors := s.map.detectors.put d t, filters := s.map.filters.put (filterOf d) code }

/-- The part with the new map, the reported inputs restarted, before the chord follows. -/
def detectorsRestarted (d : Inp) (t : DetectorSetting) (code : Fin 8) : State :=
  (s.setMap (s.detectorMap d t code)).forEach (s.map.reported d t code) startInput

theorem detectorsRestarted_frame (d : Inp) (t : DetectorSetting) (code : Fin 8) :
    KeepsAllBut s (s.detectorsRestarted d t code) [.mapUnit, .frontEnd] :=
  (s.setMap_frame _).mono.trans (startInputs_frame _ _).mono

theorem detectorsRestarted_mu (d : Inp) (t : DetectorSetting) (code : Fin 8) :
    (s.detectorsRestarted d t code).mu = { s.mu with map := s.detectorMap d t code } := startInputs_mu _ _

theorem detectorsRestarted_input (d : Inp) (t : DetectorSetting) (code : Fin 8) (e : Inp) :
    (s.detectorsRestarted d t code).input e =
      if (e = d ∧ t ≠ s.map.detectors.nth d) ∨ (filterOf e = filterOf d ∧ code ≠ s.map.filterCode d) then
        ⟨(s.input e).high, ((s.detectorMap d t code).startState e (s.input e).high).1,
          ((s.detectorMap d t code).startState e (s.input e).high).2⟩
      else s.input e := by
  rw [detectorsRestarted, startInputs_input]
  simp only [LayoutMap.mem_reported]
  rfl

/-- A restarted input is not accepted active, so that the edit completes no chord. -/
theorem detectorsRestarted_chordComplete (d : Inp) (t : DetectorSetting) (code : Fin 8)
    (h : (s.detectorsRestarted d t code).chordComplete = true) : s.chordComplete = true := by
  have settings : (s.detectorsRestarted d t code).map.settings = s.map.settings := by
    rw [map, detectorsRestarted_mu]
    rfl
  have accepted (e : Inp) (he : ((s.detectorsRestarted d t code).input e).cond.accepted = true) :
      (s.input e).cond.accepted = true := by
    by_contra hn
    have := startInputs_unaccepted (s.setMap (s.detectorMap d t code)) (s.map.reported d t code) e
      (.inr (by simpa using hn))
    rw [detectorsRestarted, this] at he
    cases he
  simp only [chordComplete, chordSet, settings, Bool.and_eq_true, List.all_eq_true] at h ⊢
  exact ⟨h.1, fun e he => accepted e (h.2 e he)⟩

/-! ### EDIT_DETECTOR (R29) -/

theorem editDetector_none (body : List Byte) (hready : s.mu.phase = .ready) (h : detectorEntry body = none) :
    s.editDetector body = s.refusal .badArg := by simp [editDetector, mapRequest, hready, h]

theorem editDetector_some {body : List Byte} {d : Inp} {t : DetectorSetting} {code : Fin 8}
    (hready : s.mu.phase = .ready) (h : detectorEntry body = some (d, t, code)) : s.editDetector body =
      (s.setDetector d t code).accepted ((s.setDetector d t code).map.detectorBytes d) := by
  simp only [editDetector, mapRequest, hready, h, reduceCtorEq, if_false]
  rfl

/-- The chord follows the restarted inputs: it is what it was, or is released (R46, R160). -/
theorem setDetector_eq (d : Inp) (t : DetectorSetting) (code : Fin 8) (h : ChordAgrees s) :
    let v := s.detectorsRestarted d t code
    s.setDetector d t code = { v with
      dfe := { v.dfe with chord := v.chordComplete }, hls := { s.hls with chord := v.chordComplete } } := by
  intro v
  obtain ⟨complete, cause, -⟩ := h
  have chord : v.dfe.chord = s.dfe.chord := startInputs_chord _ _
  have hls : v.hls = s.hls := startInputs_hls _ _
  rw [← hls]
  exact v.updateChord_unhalted (by rw [hls, cause, chord]) fun hc =>
    chord.trans (complete.trans (s.detectorsRestarted_chordComplete d t code hc))

theorem setDetector_frame (d : Inp) (t : DetectorSetting) (code : Fin 8) (h : ChordAgrees s) :
    KeepsAllBut s (s.setDetector d t code) [.mapUnit, .frontEnd, .haltSupervisor] := fun b hb => by
  have frame : s.sameIn (s.detectorsRestarted d t code) b := (s.detectorsRestarted_frame d t code).mono (by decide) b hb
  rw [s.setDetector_eq d t code h]
  cases b
  case mapUnit => exact absurd hb (by decide)
  case frontEnd => exact absurd hb (by decide)
  case haltSupervisor => exact absurd hb (by decide)
  all_goals exact frame

end State

/-- Settles O13: the owner block's state is `setDetector_eq`, read field by field; the event adds the answer. -/
theorem editDetectorRestartsTheReportedInputs : Obligations.EditDetectorRestartsTheReportedInputs := by
  intro s p tag body hs hl hready
  refine ⟨fun h => congrArg Host.Outcome.next (s.serve_refused p _ tag _ hs (fun _ => hl) .badArg []
    ((s.heard p).editDetector_none body hready h)), fun d u code hchord h => ?_⟩
  have agrees : ChordAgrees (s.heard p) := hchord
  have effect := (s.heard p).setDetector_eq d u code agrees
  have frame := (s.heard p).setDetector_frame d u code agrees
  have mu := (s.heard p).detectorsRestarted_mu d u code
  have input := (s.heard p).detectorsRestarted_input d u code
  have complete := (s.heard p).detectorsRestarted_chordComplete d u code
  have seen : ((s.heard p).detectorsRestarted d u code).dfe.seen = s.dfe.seen :=
    State.startInputs_keep _ (fun t => t.dfe.seen) (fun _ _ _ _ => rfl) _
  obtain ⟨n, ps, event, answers⟩ := s.serve_notices p { code := 0x04, levelZero := true } tag
    (fun t => t.editDetector body) hs (fun _ => hl) _ .ok _
    ((s.heard p).editDetector_some hready h) rfl (frame .consolePorts (by decide))
  refine ⟨_, congrArg Host.Outcome.next event, ?_, ?_, ?_, ?_, ?_, ?_, (frame.served n ps).mono, answers⟩
  all_goals rw [effect]
  · exact mu
  · intro e
    have map : ((s.heard p).detectorsRestarted d u code).map = (s.heard p).detectorMap d u code :=
      congrArg MapUnit.map mu
    rw [← map] at input
    exact input e
  · exact seen
  · rfl
  · rfl
  · intro asserted
    obtain ⟨chord, -⟩ := hchord
    exact chord.trans (complete asserted)

end Sys2Proof.Machine
end

section
/-!
EDIT_SETTINGS: O15.
-/

namespace Sys2Proof.Machine

open Sys2Proof

/-! ### The body of EDIT_SETTINGS, and when it is taken (R31) -/

theorem settingsEntry_length {body : List Byte} {t : Settings} (h : settingsEntry body = some t) : body.length = 8 := by
  unfold settingsEntry at h
  split at h
  · rfl
  · cases h

/-- A clamped level is 0 where the level sent is. -/
theorem Settings.clamped_level (t : Settings) (q : Port) : t.clamped.levels.nth q = min (t.levels.nth q) 3 :=
  perPort_nth_map _ _ q

/-- A chord input of the selection is a detector of a section. -/
theorem LayoutMap.chordClash_iff (m : LayoutMap) (chord : Nat) : m.chordClash chord = true ↔
    ∃ x, ∃ d ∈ chordInputs chord, (m.sections.nth x).entry = d ∨ (m.sections.nth x).brake = some d := by
  simp only [chordClash, allSections, List.any_eq_true, List.mem_finRange, true_and, Bool.or_eq_true, beq_iff_eq]
  constructor
  · rintro ⟨d, hd, x, h⟩
    exact ⟨x, d, hd, h⟩
  · rintro ⟨x, d, hd, h⟩
    exact ⟨d, hd, x, h⟩

/-- Clamped settings are taken where the selection exists, none of its inputs is a detector of a section, and some port
stays at level 0. -/
theorem LayoutMap.takesSettings_iff (m : LayoutMap) (t : Settings) : m.takesSettings t.clamped = true ↔
    t.chord ≤ 3
      ∧ (¬ ∃ x, ∃ d ∈ chordInputs t.chord, (m.sections.nth x).entry = d ∨ (m.sections.nth x).brake = some d)
      ∧ ∃ q, t.levels.nth q = 0 := by
  have chord : t.clamped.chord = t.chord := rfl
  have listed (q : Port) : q ∈ Port.all := by cases q <;> decide
  have level (q : Port) : t.clamped.levels.nth q = 0 ↔ t.levels.nth q = 0 := by
    rw [t.clamped_level]
    omega
  rw [takesSettings, chord, Bool.and_eq_true, Bool.and_eq_true, decide_eq_true_eq, Bool.not_eq_true', and_assoc,
    ← Bool.not_eq_true, chordClash_iff]
  simp only [List.any_eq_true, listed, true_and, beq_iff_eq, level]

namespace State

variable (s : State)

/-! ### The settings take effect (R31, R47, R139, R165) -/

theorem editSettings_none (body : List Byte) (hready : s.mu.phase = .ready) (h : settingsEntry body = none) :
    s.editSettings body = s.refusal .badArg := by simp [editSettings, mapRequest, hready, h]

theorem editSettings_untaken {body : List Byte} {t : Settings} (hready : s.mu.phase = .ready)
    (h : settingsEntry body = some t) (ht : ¬ s.map.takesSettings t.clamped = true) :
    s.editSettings body = s.refusal .badArg := by simp [editSettings, mapRequest, hready, h, ht]

theorem editSettings_taken {body : List Byte} {t : Settings} (hready : s.mu.phase = .ready)
    (h : settingsEntry body = some t) (ht : s.map.takesSettings t.clamped = true) :
    s.editSettings body = ⟨s.setSettings t.clamped, some ⟨if t.mask t.clamped = 0 then .ok else .clamped,
      byte (t.mask t.clamped) :: (s.setSettings t.clamped).map.entryBytes .settings⟩⟩ := by
  simp [editSettings, mapRequest, hready, h, ht, masked]

/-- The part with new settings, its chord tested under the new selection and its supply compared. -/
def settingsTested (t : Settings) : State := (s.setMap { s.map with settings := t }).updateChord.compareSupply

theorem setSettings_eq (t : Settings) : s.setSettings t =
    if s.map.settings.refresh = t.refresh then s.settingsTested t else (s.settingsTested t).recomputePeriod := rfl

theorem settingsTested_frame (t : Settings) : KeepsAllBut (s.setMap { s.map with settings := t }) (s.settingsTested t)
    [.frontEnd, .tracker, .governor, .dispatcher, .haltSupervisor] :=
  (updateChord_frame _).trans (compareSupply_frame _).mono

theorem setSettings_frame (t : Settings) : KeepsAllBut s (s.setSettings t)
    [.mapUnit, .frontEnd, .tracker, .governor, .dispatcher, .haltSupervisor] := by
  have tested : KeepsAllBut s (s.settingsTested t)
      [.mapUnit, .frontEnd, .tracker, .governor, .dispatcher, .haltSupervisor] :=
    (s.setMap_frame _).mono.trans (s.settingsTested_frame t).mono
  rw [setSettings_eq]
  exact .ite tested (tested.trans (recomputePeriod_frame _).mono)

theorem setSettings_mu (t : Settings) : (s.setSettings t).mu = { s.mu with map := { s.map with settings := t } } := by
  have tested : (s.settingsTested t).mu = { s.mu with map := { s.map with settings := t } } :=
    s.settingsTested_frame t .mapUnit (by decide)
  rw [setSettings_eq]
  split
  · exact tested
  · exact tested

/-- What the refresh period has no part in, is settled once the supply is compared. -/
theorem setSettings_tested (t : Settings) :
    (s.setSettings t).dfe = (s.setMap { s.map with settings := t }).updateChord.dfe
      ∧ (s.setSettings t).hls = (s.settingsTested t).hls := by
  have tested : (s.settingsTested t).dfe = (s.setMap { s.map with settings := t }).updateChord.dfe :=
    compareSupply_frame _ .frontEnd (by decide)
  rw [setSettings_eq]
  split
  · exact ⟨tested, rfl⟩
  · exact ⟨tested, rfl⟩

/-- The chord under the new selection: no input has changed. -/
theorem setSettings_chordComplete (t : Settings) :
    (s.setSettings t).chordComplete = (s.setMap { s.map with settings := t }).chordComplete := by
  refine chordComplete_congr ?_ fun d => ?_
  · rw [map, setSettings_mu]
    rfl
  · rw [input, (s.setSettings_tested t).1, updateChord_inputs]
    rfl

theorem setSettings_dfe (t : Settings) :
    (s.setSettings t).dfe = { s.dfe with chord := (s.setSettings t).chordComplete } := by
  rw [(s.setSettings_tested t).1, updateChord_dfe, setSettings_chordComplete, setMap_dfe]

/-- The chord's cause, the halt that a chord newly complete brings, and the supply state under the new threshold. -/
theorem setSettings_hls (t : Settings) (h : s.hls.chord = s.dfe.chord) : (s.setSettings t).hls = { s.hls with
    chord := (s.setSettings t).chordComplete
    halted := s.hls.halted || ((s.setSettings t).chordComplete && !s.dfe.chord)
    supplyLow := if s.hls.supplyLow then decide (s.pins.supplyMv < thresholdMv t.threshold + 150)
      else decide (s.pins.supplyMv < thresholdMv t.threshold) } := by
  have frame := (s.setMap { s.map with settings := t }).updateChord_frame
  have pins : (s.setMap { s.map with settings := t }).updateChord.pins = s.pins := frame .pins (by decide)
  have map : (s.setMap { s.map with settings := t }).updateChord.map = { s.map with settings := t } :=
    congrArg MapUnit.map (frame .mapUnit (by decide))
  rw [(s.setSettings_tested t).2, settingsTested, compareSupply_hls, pins, map, updateChord_hls _ (by exact h),
    setSettings_chordComplete]
  rfl

/-- P is recomputed where the configured period has changed (R139). -/
theorem setSettings_period (t : Settings) : (s.setSettings t).rds.period =
    if t.refresh = s.map.settings.refresh then s.rds.period else refreshPeriod t.refresh s.activeTrucks.length := by
  have frame := s.settingsTested_frame t
  have kept : (s.settingsTested t).rds.period = s.rds.period := by
    rw [settingsTested, compareSupply_period, updateChord_period, setMap_rds]
  have map : (s.settingsTested t).map = { s.map with settings := t } :=
    congrArg MapUnit.map (frame .mapUnit (by decide))
  have cvt : (s.settingsTested t).cvt = s.cvt := frame .convoyTable (by decide)
  have active : (s.settingsTested t).activeTrucks = s.activeTrucks :=
    List.filter_congr fun a _ => by simp only [isActive, usage, cvt]
  rw [setSettings_eq]
  by_cases same : s.map.settings.refresh = t.refresh
  · rw [if_pos same, if_pos same.symm, kept]
  · rw [if_neg same, if_neg (Ne.symm same), recomputePeriod, modRds_rds, map, active]

end State

/-- Settles O15: the owner block's state is read field by field; the event adds the answer and the notices. -/
theorem editSettingsTakesEffectAtOnce : Obligations.EditSettingsTakesEffectAtOnce := by
  intro s p tag body hs hl hready
  refine ⟨fun h => ?_, fun u hchord h hc h0 hclash => ?_⟩
  · have block : (s.heard p).editSettings body = (s.heard p).refusal .badArg := by
      rcases h with h | ⟨u, hu, h⟩
      · have none : settingsEntry body = none := by
          by_contra hn
          obtain ⟨u, hu⟩ := Option.ne_none_iff_exists'.mp hn
          exact h (settingsEntry_length hu)
        exact (s.heard p).editSettings_none body hready none
      · refine (s.heard p).editSettings_untaken hready hu fun ht => ?_
        obtain ⟨hc, hclash, q, h0⟩ := ((s.heard p).map.takesSettings_iff u).mp ht
        rcases h with h | h | h
        · exact absurd hc (Nat.not_le.mpr h)
        · exact h q h0
        · exact hclash h
    exact congrArg Host.Outcome.next (s.serve_refused p _ tag _ hs (fun _ => hl) .badArg [] block)
  · have taken : (s.heard p).map.takesSettings u.clamped = true :=
      ((s.heard p).map.takesSettings_iff u).mpr ⟨hc, fun ⟨x, d, hd, hx⟩ => by
        obtain ⟨entry, brake⟩ := hclash x d hd
        exact hx.elim entry brake, h0⟩
    obtain ⟨-, cause, -⟩ := hchord
    have mu := (s.heard p).setSettings_mu u.clamped
    have dfe := (s.heard p).setSettings_dfe u.clamped
    have hls := (s.heard p).setSettings_hls u.clamped cause
    have period := (s.heard p).setSettings_period u.clamped
    have frame := (s.heard p).setSettings_frame u.clamped
    have block := (s.heard p).editSettings_taken hready h taken
    generalize (s.heard p).setSettings u.clamped = v at *
    have settings : v.map.settings = u.clamped := congrArg (fun m : MapUnit => m.map.settings) mu
    have bytes : v.map.entryBytes .settings = settingsBytes u.clamped := congrArg settingsBytes settings
    rw [bytes] at block
    obtain ⟨n, ps, event, answers⟩ := s.serve_notices p { code := 0x06, levelZero := true } tag
      (fun t => t.editSettings body) hs (fun _ => hl) _ _ _ block rfl (frame .consolePorts (by decide))
    refine ⟨_, congrArg Host.Outcome.next event, mu, fun q => ?_, ?_, ?_, ?_, dfe, ?_, ?_, ?_, ?_,
      (frame.served n ps).mono, answers⟩
    · exact (congrArg (fun t : Settings => t.levels.nth q) settings).trans (u.clamped_level q)
    · exact (congrArg Settings.chord settings).trans rfl
    · exact congrArg Settings.refresh settings
    · exact congrArg Settings.threshold settings
    · exact congrArg HaltSupervisor.chord hls
    · exact congrArg HaltSupervisor.halted hls
    · have normal : thresholdMv u.clamped.threshold + 150 = 4750 + 100 * u.clamped.threshold := by
        rw [thresholdMv]
        omega
      rw [normal, ← settings] at hls
      exact congrArg HaltSupervisor.supplyLow hls
    · exact period

end Sys2Proof.Machine
end

section
/-!
The conditioning of the inputs: O40.
-/

namespace Sys2Proof.Machine

open Sys2Proof

/-! ### The seen sets (R43) -/

theorem mem_insertInp (d e : Inp) (l : List Inp) : e ∈ insertInp d l ↔ e ∈ l ∨ e = d := by
  induction l with
  | nil => simp [insertInp]
  | cons f l ih =>
    rw [insertInp]
    split
    · simp only [List.mem_cons]
      tauto
    · split
      · rename_i hdf
        subst hdf
        simp only [List.mem_cons]
        tauto
      · simp only [List.mem_cons, ih]
        tauto

namespace State

variable (s : State)

/-- `d` joins the seen sets of the attached ports; inputs and chord state stay. -/
theorem addSeen_dfe (d : Inp) : ∃ seen, (s.addSeen d).dfe = { s.dfe with seen := seen }
    ∧ ∀ q e, e ∈ seen.nth q ↔ e ∈ s.dfe.seen.nth q ∨ e = d ∧ (s.port q).attached = true := by
  have joins (ps : List Port) (t : State) :
      ∃ seen, (t.forEach ps fun s p =>
          { s with dfe := { s.dfe with seen := s.dfe.seen.put p (insertInp d (s.dfe.seen.nth p)) } }).dfe
        = { t.dfe with seen := seen }
      ∧ ∀ q e, e ∈ seen.nth q ↔ e ∈ t.dfe.seen.nth q ∨ e = d ∧ q ∈ ps := by
    induction ps generalizing t with
    | nil => exact ⟨t.dfe.seen, rfl, by simp⟩
    | cons p ps ih =>
      obtain ⟨seen, dfe, mem⟩ := ih { t with
        dfe := { t.dfe with seen := t.dfe.seen.put p (insertInp d (t.dfe.seen.nth p)) } }
      refine ⟨seen, dfe, fun q e => ?_⟩
      rw [mem]
      by_cases hq : q = p
      · subst hq
        simp only [perPort_nth_put_self, mem_insertInp, List.mem_cons, true_or, and_true]
        tauto
      · simp [hq]
  simp only [← mem_attachedPorts]
  exact joins s.attachedPorts s

/-- A passage reaches the Front End by the seen sets alone. -/
theorem passage_dfe (d : Inp) (h : d ∉ chordInputs s.map.settings.chord) : (s.passage d).dfe = (s.addSeen d).dfe := by
  rw [passage, if_neg (by simpa [chordSet] using h)]
  dsimp only
  split
  · exact entryPassage_frame _ _ d .frontEnd (by decide)
  · exact brakePassage_frame _ _ .frontEnd (by decide)
  · rfl

/-! ### The move of an input (R34 to R38, R40, R41, R46) -/

/-- Input `d` with its line at a level, and the state and the timer that a table gives it. -/
def conditioned (d : Inp) (high : Bool) (next : InputState × Option Nat) : State :=
  s.modInput d fun _ => ⟨high, next.1, next.2⟩

/-- Input `d` moves: where its accepted level changes the chord follows, and a move to ACTIVE is a passage. -/
def inputMoved (d : Inp) (high : Bool) (next : InputState × Option Nat) : State :=
  if next.1.accepted = (s.input d).cond.accepted then s.conditioned d high next
  else if next.1 = .active then (s.conditioned d high next).updateChord.passage d
  else (s.conditioned d high next).updateChord

variable (d : Inp) (high : Bool) (next : InputState × Option Nat)

theorem conditioned_input (e : Inp) :
    (s.conditioned d high next).input e = if e = d then ⟨high, next.1, next.2⟩ else s.input e :=
  s.input_modInput d e _

theorem conditioned_same : s.conditioned d (s.input d).high ((s.input d).cond, (s.input d).timer) = s := by
  have same : s.dfe.inputs.put d (s.input d) = s.dfe.inputs := tab_put_nth _ d
  change { s with dfe := { s.dfe with inputs := s.dfe.inputs.put d (s.input d) } } = s
  rw [same]

/-- A line's level and the conditioning that follows it are one update. -/
theorem conditioned_conditioned (low : Bool) (before : InputState × Option Nat) :
    (s.conditioned d low before).conditioned d high next = s.conditioned d high next := by
  simp only [conditioned, modInput, tab_put_put]

theorem inputMoved_unmoved : s.inputMoved d (s.input d).high ((s.input d).cond, (s.input d).timer) = s :=
  (if_pos rfl).trans (s.conditioned_same d)

theorem inputMoved_still {c : InputState} {timer : Option Nat} (h : c.accepted = (s.input d).cond.accepted) :
    s.inputMoved d (s.input d).high (c, timer) = s.setCond d c timer := if_pos h

theorem inputMoved_active (h : (s.input d).cond.accepted = false) :
    s.inputMoved d (s.input d).high (.active, none) = s.becomeActive d :=
  (if_neg (by rw [h]; decide)).trans (if_pos rfl)

theorem inputMoved_inactive (h : (s.input d).cond.accepted = true) :
    s.inputMoved d (s.input d).high (.inactive, none) = s.becomeInactive d :=
  (if_neg (by rw [h]; decide)).trans (if_neg (by simp))

/-! ### Each event of the conditioning is the move of its table (R35 to R38, R40) -/

theorem checkExpiry_moved : s.checkExpiry d
    = s.inputMoved d (s.input d).high (expiryTable (s.input d).cond (s.input d).timer) := by
  have unmoved := s.inputMoved_unmoved d
  unfold checkExpiry
  split
  all_goals rename_i h
  all_goals rw [h] at unmoved ⊢
  case h_1 => exact unmoved.symm
  case h_2 => exact (s.inputMoved_still d (by rw [h]; rfl)).symm
  case h_3 => exact unmoved.symm
  case h_4 => exact (s.inputMoved_active d (by rw [h]; rfl)).symm
  case h_5 => exact unmoved.symm
  case h_6 => exact (s.inputMoved_inactive d (by rw [h]; rfl)).symm

theorem wentActive_moved : s.wentActive d = s.inputMoved d (s.input d).high
    (levelTable (s.input d).cond (s.input d).timer true (s.map.filterCode d == 0)) := by
  have unmoved := s.inputMoved_unmoved d
  unfold wentActive
  split
  all_goals rename_i h
  all_goals rw [h] at unmoved ⊢
  case h_1 => exact unmoved.symm
  case h_2 => exact (s.inputMoved_still d (by rw [h])).symm
  case h_3 =>
    unfold filterOff
    cases s.map.filterCode d == 0 with
    | true => exact (s.inputMoved_active d (by rw [h]; rfl)).symm
    | false => exact (s.inputMoved_still d (by rw [h]; rfl)).symm
  case h_4 => exact unmoved.symm
  case h_5 => exact unmoved.symm
  case h_6 => exact (s.inputMoved_still d (by rw [h]; rfl)).symm

theorem wentInactive_moved : s.wentInactive d = s.inputMoved d (s.input d).high
    (levelTable (s.input d).cond (s.input d).timer false (s.map.filterCode d == 0)) := by
  have unmoved := s.inputMoved_unmoved d
  unfold wentInactive
  split
  all_goals rename_i h
  all_goals rw [h] at unmoved ⊢
  case h_1 => exact unmoved.symm
  case h_2 =>
    unfold idleInactive filterOff
    cases s.map.filterCode d == 0 with
    | true => exact (s.inputMoved_still d (by rw [h]; rfl)).symm
    | false => exact (s.inputMoved_still d (by rw [h])).symm
  case h_3 => exact unmoved.symm
  case h_4 => exact (s.inputMoved_still d (by rw [h]; rfl)).symm
  case h_5 =>
    unfold filterOff
    cases s.map.filterCode d == 0 with
    | true => exact (s.inputMoved_inactive d (by rw [h]; rfl)).symm
    | false => exact (s.inputMoved_still d (by rw [h]; rfl)).symm
  case h_6 => exact unmoved.symm

/-- The line's own level is part of the move. -/
theorem inputMoved_afterLevel : (s.conditioned d high ((s.input d).cond, (s.input d).timer)).inputMoved d high next
    = s.inputMoved d high next := by
  simp only [inputMoved, conditioned_conditioned, conditioned_input, if_true]

theorem conditioned_logical : (s.conditioned d high next).logical d = (high == (s.map.detectors.nth d).activeHigh) := by
  rw [logical, conditioned_input, if_pos rfl]
  rfl

theorem lineChange_moved (hrun : s.running = true) : s.lineChange d high = s.inputMoved d high
    (if high = (s.input d).high then ((s.input d).cond, (s.input d).timer)
      else levelTable (s.input d).cond (s.input d).timer (high == (s.map.detectors.nth d).activeHigh)
        (s.map.filterCode d == 0)) := by
  let v := s.conditioned d high ((s.input d).cond, (s.input d).timer)
  have levelled : s.lineChange d high =
      if !s.running || v.logical d == s.logical d then v
      else if v.logical d then v.wentActive d else v.wentInactive d := rfl
  have input : v.input d = ⟨high, (s.input d).cond, (s.input d).timer⟩ :=
    (s.conditioned_input d high _ d).trans (if_pos rfl)
  have active : v.wentActive d = _ := v.wentActive_moved d
  have inactive : v.wentInactive d = _ := v.wentInactive_moved d
  rw [input, s.inputMoved_afterLevel d high] at active inactive
  have same (a b x : Bool) : ((a == x) == (b == x)) = (a == b) := by revert a b x; decide
  rw [levelled, hrun, Bool.not_true, Bool.false_or, s.conditioned_logical d high, logical, same]
  by_cases hl : high = (s.input d).high
  · have unmoved : s.inputMoved d high ((s.input d).cond, (s.input d).timer) = v := if_pos rfl
    rw [if_pos hl, unmoved]
    exact if_pos (beq_iff_eq.mpr hl)
  · rw [if_neg hl, if_neg (mt beq_iff_eq.mp hl)]
    cases high == (s.map.detectors.nth d).activeHigh with
    | true => exact active
    | false => exact inactive

/-! ### What a move reaches (R41, R43, R46) -/

theorem passage_inputs : (s.passage d).dfe.inputs = s.dfe.inputs := by
  by_cases h : d ∈ chordInputs s.map.settings.chord
  · rw [passage, if_pos (by simpa [chordSet] using h)]
  · obtain ⟨seen, dfe, -⟩ := s.addSeen_dfe d
    rw [s.passage_dfe d h, dfe]

theorem inputMoved_input (e : Inp) :
    (s.inputMoved d high next).input e = if e = d then ⟨high, next.1, next.2⟩ else s.input e := by
  have inputs : (s.inputMoved d high next).dfe.inputs = (s.conditioned d high next).dfe.inputs := by
    unfold inputMoved
    split
    · rfl
    · split
      · rw [passage_inputs, updateChord_inputs]
      · exact updateChord_inputs _
  rw [input, inputs]
  exact s.conditioned_input d high next e

/-- The move to ACTIVE of an input that is no chord input joins the seen set of every attached port. -/
theorem inputMoved_seen (ha : next.1 = .active) (hi : (s.input d).cond.accepted = false)
    (hd : d ∉ chordInputs s.map.settings.chord) (q : Port) (e : Inp) :
    e ∈ (s.inputMoved d high next).dfe.seen.nth q ↔ e ∈ s.dfe.seen.nth q ∨ e = d ∧ (s.port q).attached = true := by
  let v := (s.conditioned d high next).updateChord
  have frame : KeepsAllBut (s.conditioned d high next) v _ := updateChord_frame _
  have map : v.map = s.map := congrArg MapUnit.map (frame .mapUnit (by decide))
  have port : v.port q = s.port q := congrArg (fun ps => PerPort.nth ps q) (frame .consolePorts (by decide))
  have seen : v.dfe.seen = s.dfe.seen := by
    rw [updateChord_dfe]
    rfl
  have moved : s.inputMoved d high next = v.passage d :=
    (if_neg (by rw [hi, ha]; decide)).trans (if_pos ha)
  obtain ⟨joined, dfe, mem⟩ := v.addSeen_dfe d
  rw [moved, v.passage_dfe d (by rwa [map]), dfe, mem, seen, port]

/-- Any other move is none of a passage: the input moves, and the chord follows where its accepted level changes. -/
theorem inputMoved_alone
    (h : ¬ (next.1 = .active ∧ (s.input d).cond.accepted = false ∧ d ∉ chordInputs s.map.settings.chord)) :
    s.inputMoved d high next = if next.1.accepted = (s.input d).cond.accepted then s.conditioned d high next
      else (s.conditioned d high next).updateChord := by
  unfold inputMoved
  split
  · rfl
  · rename_i changes
    split
    · rename_i ha
      have unaccepted : (s.input d).cond.accepted = false := by
        rw [ha] at changes
        simpa [InputState.accepted] using changes
      have chord : d ∈ chordInputs s.map.settings.chord := by
        by_contra hd
        exact h ⟨ha, unaccepted, hd⟩
      have map : (s.conditioned d high next).updateChord.map = s.map :=
        congrArg MapUnit.map (updateChord_frame (s.conditioned d high next) .mapUnit (by decide))
      exact if_pos (by simpa [chordSet, map] using chord)
    · rfl

/-- Where the accepted level stays, the event brings the ports no more than the look of their transmitters (R154). -/
theorem event_conditioned (hr : s.raised = []) :
    let t := s.event fun v => v.conditioned d high next
    t.dfe.seen = s.dfe.seen ∧ t.ports = s.ports.map PortState.look ∧ KeepsAllBut s t [.frontEnd, .consolePorts] := by
  have event : s.event (fun v => v.conditioned d high next) = (s.numbered.conditioned d high next).looked :=
    s.event_eq rfl hr
  have frame := s.event_frame _ fun v : State => v.modInput_frame d fun _ => ⟨high, next.1, next.2⟩
  refine ⟨?_, ?_, frame.mono⟩
  · rw [event]
    rfl
  · rw [event]
    rfl

/-- Where it changes, the chord follows, and may halt the part. -/
theorem event_chordFollows :
    let t := s.event fun v => (v.conditioned d high next).updateChord
    t.dfe.seen = s.dfe.seen ∧ KeepsPorts s t
      ∧ KeepsAllBut s t [.frontEnd, .tracker, .governor, .dispatcher, .haltSupervisor, .consolePorts] := by
  have frame (v : State) : KeepsAllBut v (v.conditioned d high next).updateChord
      [.frontEnd, .tracker, .governor, .dispatcher, .haltSupervisor] :=
    (v.modInput_frame d _).mono.trans (updateChord_frame _)
  refine ⟨?_, s.event_ports _ frame (by decide), (s.event_frame _ frame).mono⟩
  refine (s.event_keeps (fun t => t.dfe.seen) (fun _ _ _ _ => rfl) _).trans ?_
  rw [updateChord_dfe]
  rfl

/-- An event that moves an input and is no passage leaves the seen sets, and the ports but for notices. -/
theorem event_inputMoved_alone (f : State → State) (hr : s.raised = [])
    (hf : f s.numbered = s.numbered.inputMoved d high next)
    (h : ¬ (next.1 = .active ∧ (s.input d).cond.accepted = false ∧ d ∉ chordInputs s.map.settings.chord)) :
    (s.event f).dfe.seen = s.dfe.seen ∧ KeepsPorts s (s.event f)
      ∧ KeepsAllBut s (s.event f) [.frontEnd, .tracker, .governor, .dispatcher, .haltSupervisor, .consolePorts]
      ∧ (next.1.accepted = (s.input d).cond.accepted →
        (s.event f).ports = s.ports.map PortState.look ∧ KeepsAllBut s (s.event f) [.frontEnd, .consolePorts]) := by
  have alone := hf.trans (s.numbered.inputMoved_alone d high next h)
  by_cases ha : next.1.accepted = (s.input d).cond.accepted
  · rw [s.event_congr (g := fun v => v.conditioned d high next) (alone.trans (if_pos ha))]
    obtain ⟨seen, ports, frame⟩ := s.event_conditioned d high next hr
    refine ⟨seen, fun q => ⟨(s.port q).notices, (s.port q).flush, ?_⟩, frame.mono, fun _ => ⟨ports, frame⟩⟩
    rw [port, ports]
    exact perPort_nth_map _ _ q
  · rw [s.event_congr (g := fun v => (v.conditioned d high next).updateChord) (alone.trans (if_neg ha))]
    obtain ⟨seen, ports, frame⟩ := s.event_chordFollows d high next
    exact ⟨seen, ports, frame, fun still => absurd still ha⟩

/-- Before the end of the load a change is recorded as the level of the line. -/
theorem lineChange_recorded (h : s.running = false) :
    s.lineChange d high = s.modInput d fun i => { i with high := high } := by
  have off : (s.modInput d fun i => { i with high := high }).running = false := h
  exact if_pos (by simp [off])

theorem atExpiry_checkLeft {d : Inp} {ms : Nat} (h : s.checkLeft d = some ms) :
    s.atExpiry (s.checkLeft d) (fun v => v.checkExpiry d) = (s.advance ms).event fun v => v.checkExpiry d := by
  rw [h, atExpiry]

/-- Time moves neither the line nor the conditioning state of an input. -/
theorem advance_high (ms : Nat) (d : Inp) : ((s.advance ms).input d).high = (s.input d).high := by
  obtain ⟨timer, h⟩ := s.advance_input ms d
  rw [h]

end State

/-- Settles O40: each of the two events is the move that its table gives, and the chord's law holds after it. -/
theorem inputsAreConditioned : Obligations.InputsAreConditioned := by
  intro s d hr moved
  have moves (u : State) (f : State → State) (high : Bool) (next : InputState × Option Nat) (hu : u.raised = [])
      (hf : f u.numbered = u.numbered.inputMoved d high next) (hc : ChordAgrees (u.event f)) :
      moved u (u.event f) high next := by
    have dfe : (u.event f).dfe = (u.numbered.inputMoved d high next).dfe :=
      (u.event_keeps State.dfe (fun _ _ _ _ => rfl) f).trans (congrArg State.dfe hf)
    have input (e : Inp) : (u.event f).input e = if e = d then ⟨high, next.1, next.2⟩ else u.input e := by
      rw [State.input, dfe]
      exact u.numbered.inputMoved_input d high next e
    obtain ⟨chord, cause, -⟩ := hc
    refine ⟨(input d).trans (if_pos rfl), fun e he => (input e).trans (if_neg he), chord, cause, ?_⟩
    split
    · rename_i passes
      obtain ⟨active, unaccepted, hd⟩ := passes
      rw [dfe]
      exact u.numbered.inputMoved_seen d high next active unaccepted hd
    · exact u.event_inputMoved_alone d high next f hu hf ‹_›
  refine ⟨fun high hn => ?_, fun high hc hrun => ⟨_, rfl, ?_⟩, fun hn => ?_, fun ms hc hl => ?_⟩
  · exact congrArg Host.Outcome.next (s.event_eq (s.numbered.lineChange_recorded d high hn) hr)
  · exact moves s _ high _ hr (s.numbered.lineChange_moved d high hrun)
      ((StepKeeps.event (State.lineChange_orderly _ d high).toKeepsLaws).chord hc)
  · have stays : s.atExpiry (s.checkLeft d) (fun v => v.checkExpiry d) = s := by rw [hn, State.atExpiry]
    exact congrArg Host.Outcome.next stays
  · have running : (s.advance ms).numbered.running = true := (s.advance_running ms).trans (s.checkLeft_running hl)
    have expiry := (s.advance ms).numbered.checkExpiry_moved d
    have agrees : ChordAgrees ((s.advance ms).event fun v => v.checkExpiry d) :=
      (StepKeeps.event (State.checkExpiry_orderly _ running d).toKeepsLaws).chord ((StepKeeps.advance s ms).chord hc)
    refine ⟨_, congrArg Host.Outcome.next (s.atExpiry_checkLeft hl), ?_⟩
    rw [← s.advance_high ms d, ← s.advance_cond ms d]
    exact moves (s.advance ms) _ _ _ ((s.advance_raised ms).trans hr) expiry agrees

end Sys2Proof.Machine
end

section
/-!
The state after reset: O3.
-/

namespace Sys2Proof.Machine

open Sys2Proof

/-! ### The laws that the power reset values give -/

section

variable {t : State} (h : AtPowerReset t)

include h

/-- Every queue of a port is empty. -/
theorem AtPowerReset.withinRoom : WithinRoom t := fun p => by
  obtain ⟨-, -, -, -, -, -, -, -, -, -, -, -, aux, -, -, port, -⟩ := h
  rw [port, aux]
  exact ⟨Nat.zero_le _, Nat.zero_le _, Nat.zero_le _⟩

/-- Every port is detached. -/
theorem AtPowerReset.nothingWaitsIdle : NothingWaitsIdle t := fun p => by
  obtain ⟨-, -, -, -, -, -, -, -, -, -, -, -, -, -, -, port, -⟩ := h
  rw [port]
  exact ⟨rfl, rfl⟩

/-- No input is accepted active, so that no chord is complete. -/
theorem AtPowerReset.chordAgrees : ChordAgrees t := by
  obtain ⟨-, input, -, chord, -, -, -, -, -, -, -, -, -, -, -, -, hls⟩ := h
  have complete : t.chordComplete = false := t.chordComplete_unaccepted fun d => by
    obtain ⟨cond, -⟩ := input d
    rw [cond]
    rfl
  exact ⟨chord.trans complete.symm, (congrArg HaltSupervisor.chord hls).trans chord.symm, fun _ => chord⟩

/-- No convoy has members, and every truck stands. -/
theorem AtPowerReset.haltedStand : HaltedStand t := by
  obtain ⟨-, -, -, -, -, convoy, -, -, -, -, speed, -⟩ := h
  have members (c : Conv) : t.members c = [] := congrArg Convoy.members (convoy c)
  refine ⟨⟨fun c a ha => ?_, fun c _ => members c⟩, fun a _ => speed a, fun _ a => speed a⟩
  simp [members, truckAddrs] at ha

/-- No convoy waits. -/
theorem AtPowerReset.queuesAgree : QueuesAgree t := by
  obtain ⟨-, -, -, -, -, -, sec, grp, road, -⟩ := h
  have queue (r : Resource) : t.queue r = [] := by
    cases r with
    | sec x =>
      obtain ⟨-, -, queue⟩ := sec x
      exact queue
    | grp g => exact congrArg Group.queue (grp g)
  refine ⟨fun r e he => ?_, fun c _ => road c⟩
  simp [queue] at he

end

/-! ### Power-up -/

/-- The part powers up as a power reset leaves it: one more changes nothing. -/
theorem State.reset_resetWith : State.reset.resetWith State.reset.pins = State.reset := by
  have high : (fun d => (State.reset.input d).high) = fun _ => false :=
    funext fun d => congrArg Input.high (tab_nth_make (fun _ => (⟨false, .disabled, none⟩ : Input)) d)
  have ports : (State.reset.resetWith State.reset.pins).ports = State.reset.ports := perPort_ext fun p => by
    have present : State.reset.port p = .fresh false presentMs false := perPort_nth_all _ p
    have port := State.reset.resetWith_port State.reset.pins p
    rw [present] at port
    exact port.trans present.symm
  rw [resetWith, looked, powerReset, high] at ports ⊢
  exact congrArg (fun ps => { State.reset with ports := ps }) ports

/-- The map that a part powers up with has its profiles and settings in range (R23, Table 2.2). -/
theorem State.reset_mapInRange : MapInRange State.reset := by
  obtain ⟨profiles, settings⟩ := loaded_valid .torn true
  exact .of_valid profiles settings

/-- Settles O3: power-up is a power reset, whose values give the laws. -/
theorem resetHoldsThePowerResetValues : Obligations.ResetHoldsThePowerResetValues := by
  have values : AtPowerReset State.reset :=
    State.reset_resetWith ▸ State.reset.resetWith_atPowerReset State.reset.pins
  exact ⟨values, rfl, rfl, State.reset_mapInRange, values.withinRoom, values.nothingWaitsIdle, values.chordAgrees,
    values.haltedStand, values.queuesAgree⟩

end Sys2Proof.Machine
end

section
/-!
The detach event: O8.
-/

namespace Sys2Proof.Machine

open Sys2Proof

/-- A port whose line shows no console, its watch at its end, as it is when it has detached (R155). -/
theorem PortState.detached_eq {q : PortState} (hp : q.present = false) (hw : q.watchMs = 0) : q.detached = { q with
    present := false, watchMs := 0, attached := false, lastConvoy := none, receiver := .hunt, replies := []
    reserved := false, notices := [], flush := .stopped, tx := .idle } := by
  cases q
  subst hp hw
  rfl

namespace State

variable (s : State)

/-! ### Notices for other ports (R156) -/

/-- A port that no raised notice is for stays as it is until the transmitters look. -/
theorem deliver_untold (q : Port) (h : ∀ r ∈ s.raised, q ∉ r.ports) : s.deliver.port q = s.port q := by
  have one (t : State) (r : Raised) (hr : q ∉ r.ports) : (t.deliverOne r).port q = t.port q :=
    forEach_inv_mem (fun u => u.port q = t.port q) _ t r.ports
      (fun u p hp hu => (port_modPort_ne u _ fun e : q = p => hr (e ▸ hp)).trans hu) rfl
  refine forEach_inv_mem (fun t => t.port q = s.port q) _ { s with raised := [] } _ (fun t c _ ht => ?_) rfl
  obtain ⟨k, hk⟩ := t.anyOrder_state (raisedFor s.raised c)
  refine forEach_inv_mem (fun u => u.port q = s.port q) _ _ _ (fun u r hr hu => (one u r (h r ?_)).trans hu) ?_
  · have perm := t.anyOrder_perm (raisedFor s.raised c)
    exact List.mem_of_mem_filter (perm.mem_iff.mp hr)
  · exact (congrArg (fun u => State.port u q) hk).trans ht

/-! ### Convoys that lose their owner (R57, R58) -/

theorem orphan_frame (c : Conv) : KeepsAllBut s (s.orphan c) [.convoyTable] :=
  .ite ((s.modConvoy_frame c _).trans (raise_frame _ _ _).mono) (s.modConvoy_frame c _)

theorem orphan_convoy (c e : Conv) : (s.orphan c).convoy e = if e = c then
      (if (s.convoy c).state = .unformed then
        { s.convoy c with owner := none, params := ⟨40, 8, 2, 4, 2, 15⟩, thr := ⟨1000, 2000, 6000⟩ }
      else { s.convoy c with owner := none })
    else s.convoy e := by
  by_cases hf : (s.convoy c).state = .unformed
  · have unformed : ¬ s.formed c = true := by simp [formed, hf]
    rw [orphan, if_neg unformed, convoy_modConvoy, if_pos hf]
    rfl
  · have formed : s.formed c = true := by simp [formed, hf]
    rw [orphan, if_pos formed, convoy_raise, convoy_modConvoy, if_neg hf]

theorem orphan_trucks (c : Conv) : (s.orphan c).cvt.trucks = s.cvt.trucks := by
  unfold orphan
  split <;> rfl

/-- Each convoy of a list is orphaned once, and no other changes. -/
theorem orphans_convoy (l : List Conv) (hl : l.Nodup) (e : Conv) :
    (s.forEach l orphan).convoy e = if e ∈ l then (s.orphan e).convoy e else s.convoy e := by
  induction l generalizing s with
  | nil => rfl
  | cons c l ih =>
    obtain ⟨hc, hl⟩ := List.nodup_cons.mp hl
    rw [forEach_cons, ih _ hl]
    by_cases he : e = c
    · subst he
      simp [hc]
    · simp [orphan_convoy, he]

/-- Orphans' notices go to attached ports only. -/
theorem orphans_raised (l : List Conv) (q : Port) (hq : (s.port q).attached = false)
    (h : ∀ r ∈ s.raised, q ∉ r.ports) :
    ∀ r ∈ (s.forEach l orphan).raised, q ∉ r.ports := by
  refine (forEach_inv (fun t => (t.port q).attached = false ∧ ∀ r ∈ t.raised, q ∉ r.ports) orphan (fun t c ht => ?_)
    s l ⟨hq, h⟩).2
  obtain ⟨detached, untold⟩ := ht
  have port : (t.orphan c).port q = t.port q :=
    congrArg (fun ps => PerPort.nth ps q) (t.orphan_frame c .consolePorts (by decide))
  refine ⟨port ▸ detached, ?_⟩
  unfold orphan
  split
  · intro r hr
    rw [raise_raised] at hr
    rcases List.mem_append.mp hr with hr | hr
    · exact untold r hr
    · rw [List.mem_singleton.mp hr]
      intro told
      have told : q ∈ t.attachedPorts := List.mem_of_mem_filter told
      simp [mem_attachedPorts, detached] at told
  · exact untold

/-! ### The detach event (R43, R58, R145, R146, R155) -/

/-- The port's own state, then the other blocks for it, then its convoys. -/
theorem detachPort_eq (p : Port) : s.detachPort p =
    (s.startedAfresh p (s.port p).detached).forEach (allConvoys.filter fun c => s.owns p c) orphan := rfl

theorem orphans_frame (l : List Conv) : KeepsAllBut s (s.forEach l orphan) [.convoyTable] :=
  .forEach (fun t c => t.orphan_frame c) s l

theorem startedAfresh_frame (p : Port) (q : PortState) :
    KeepsAllBut s (s.startedAfresh p q) [.consolePorts, .frontEnd, .dispatcher] := fun b hb => by
  cases b
  case consolePorts => exact absurd hb (by decide)
  case frontEnd => exact absurd hb (by decide)
  case dispatcher => exact absurd hb (by decide)
  all_goals rfl

theorem detachPort_frame (p : Port) :
    KeepsAllBut s (s.detachPort p) [.consolePorts, .frontEnd, .dispatcher, .convoyTable] := by
  rw [detachPort_eq]
  exact (s.startedAfresh_frame p _).mono.trans (orphans_frame _ _).mono

theorem detachPort_ports (p : Port) : (s.detachPort p).ports = s.ports.put p (s.port p).detached := by
  rw [detachPort_eq]
  exact orphans_frame _ _ .consolePorts (by decide)

theorem detachPort_port (p q : Port) :
    (s.detachPort p).port q = if q = p then (s.port p).detached else s.port q := by
  rw [port, detachPort_ports]
  exact perPort_nth_put _ p q _

theorem detachPort_dfe (p : Port) : (s.detachPort p).dfe = { s.dfe with seen := s.dfe.seen.put p [] } := by
  rw [detachPort_eq]
  exact orphans_frame _ _ .frontEnd (by decide)

theorem detachPort_rds (p : Port) : (s.detachPort p).rds = { s.rds with auxQueues := s.rds.auxQueues.put p [] } := by
  rw [detachPort_eq]
  exact orphans_frame _ _ .dispatcher (by decide)

theorem detachPort_trucks (p : Port) : (s.detachPort p).cvt.trucks = s.cvt.trucks := by
  rw [detachPort_eq]
  exact forEach_keeps (fun t => t.cvt.trucks) orphan orphan_trucks _ _

theorem detachPort_convoy (p : Port) (c : Conv) : (s.detachPort p).convoy c =
    if (s.convoy c).owner = some p then
      (if (s.convoy c).state = .unformed then
        { s.convoy c with owner := none, params := ⟨40, 8, 2, 4, 2, 15⟩, thr := ⟨1000, 2000, 6000⟩ }
      else { s.convoy c with owner := none })
    else s.convoy c := by
  have mine : c ∈ allConvoys.filter (fun c => s.owns p c) ↔ (s.convoy c).owner = some p := by
    simp [allConvoys, owns]
  have nodup : (allConvoys.filter fun c => s.owns p c).Nodup := (List.nodup_finRange 12).filter _
  rw [detachPort_eq, orphans_convoy _ _ nodup, orphan_convoy, if_pos rfl]
  exact if_congr mine rfl rfl

/-- At the end of the event the port has none of its notices: it is no recipient of what its own detach raises. -/
theorem event_detachPort_port (p : Port) (hr : s.raised = []) :
    (s.event fun u => u.detachPort p).port p = (s.port p).detached := by
  have untold : ∀ r ∈ (s.numbered.detachPort p).raised, p ∉ r.ports := by
    rw [detachPort_eq]
    refine orphans_raised _ _ p ?_ fun r hm => ?_
    · exact congrArg PortState.attached (perPort_nth_put_self s.ports p (s.port p).detached)
    · have raised : r ∈ s.raised := hm
      simp [hr] at raised
  have port := (deliver_untold _ p untold).trans ((s.numbered.detachPort_port p p).trans (if_pos rfl))
  rw [event, port_looked]
  exact (congrArg PortState.look port).trans (PortState.look_detached _ rfl)

/-- What a port is after the watch of its line, and its detach. -/
theorem advance_detached (p : Port) (hh : s.mu.phase ≠ .held) (hp : (s.port p).present = false) :
    ((s.advance (s.port p).watchMs).port p).detached = { s.port p with
      present := false, watchMs := 0, attached := false, lastConvoy := none, receiver := .hunt, replies := []
      reserved := false, notices := [], flush := .stopped, tx := .idle } := by
  have ended := (s.advance_watchMs (s.port p).watchMs p hh).trans (Nat.sub_self _)
  have shows := (s.advance_present (s.port p).watchMs p).trans hp
  rw [PortState.detached_eq shows ended]
  rcases s.advance_port (s.port p).watchMs p with h | h
  · rw [h]
  · rw [h]
    rfl

theorem advance_cvt (ms : Nat) : (s.advance ms).cvt = s.cvt := by
  unfold advance
  split <;> rfl

/-! ### When the detach event is due (R146) -/

theorem detach_mem_duePort (p q : Port) : Instr.detach p ∈ s.duePort q ↔
    q = p ∧ ranOut (s.watchLeft q) = true ∧ (s.port q).present = false := by
  have other : Instr.detach p = (if (s.port q).present then Instr.attach q else .detach q)
      ↔ q = p ∧ (s.port q).present = false := by
    cases (s.port q).present <;> simp [eq_comm]
  simp only [duePort, List.mem_append, List.mem_ite_nil_right, List.mem_singleton, reduceCtorEq, and_false, false_or,
    other]
  exact and_left_comm

theorem ranOut_watchLeft (p : Port) : ranOut (s.watchLeft p) = true ↔
    s.mu.phase ≠ .held ∧ (s.port p).present ≠ (s.port p).attached ∧ (s.port p).watchMs = 0 := by
  simp [ranOut, watchLeft, and_assoc]

theorem detach_mem_due (p : Port) : Instr.detach p ∈ s.due ↔
    s.mu.phase ≠ .held ∧ (s.port p).present = false ∧ (s.port p).attached = true ∧ (s.port p).watchMs = 0 := by
  have listed : p ∈ Port.all := by cases p <;> decide
  have commit : Instr.detach p ∉ s.dueCommit := by
    unfold dueCommit
    split <;> simp
  have only : Instr.detach p ∈ s.due ↔ ranOut (s.watchLeft p) = true ∧ (s.port p).present = false := by
    simp [due, dueLoad, commit, dueGaps, detach_mem_duePort, listed]
  rw [only, ranOut_watchLeft]
  cases (s.port p).present <;> simp

end State

/-- Settles O8: the change of the line moves nothing else; the end of its watch detaches an attached port. -/
theorem detachOrphansThePortsConvoys : Obligations.DetachOrphansThePortsConvoys := by
  intro s p v
  refine ⟨fun hp => ?_, fun hp hn => ?_, fun hr hp hl => ?_, s.detach_mem_due p⟩
  · exact congrArg Host.Outcome.next (if_neg (by simp [hp]))
  · have none : s.watchLeft p = none := s.watchLeft_none p (by
      rcases Bool.and_eq_false_iff.mp hn with ha | hh
      · exact .inr (hp.trans ha.symm)
      · exact .inl (by simpa using hh))
    refine congrArg Host.Outcome.next ((if_pos hp).trans ?_)
    rw [none, State.atExpiry]
  · obtain ⟨attached, hh⟩ := Bool.and_eq_true_iff.mp hl
    have hh : s.mu.phase ≠ .held := by simpa using hh
    have left : s.watchLeft p = some (s.port p).watchMs := s.watchLeft_some p hh (by simp [hp, attached])
    have event : s.atExpiry (s.watchLeft p) (fun u => u.detachPort p) = v.event fun u => u.detachPort p := by
      rw [left, State.atExpiry]
    have reads {β : Type} (g : State → β)
        (hg : ∀ (t : State) k l ps, g { t with raised := l, fresh := k, ports := ps } = g t) :
        g (v.event fun u => u.detachPort p) = g (v.numbered.detachPort p) := v.event_keeps g hg _
    have cvt : v.cvt = s.cvt := s.advance_cvt _
    have convoy (c : Conv) : v.convoy c = s.convoy c := congrArg (fun k : ConvoyTable => k.convoys.nth c) cvt
    have seen : v.dfe.seen = s.dfe.seen := s.advance_seen _
    have aux : v.rds.auxQueues = s.rds.auxQueues := s.advance_auxQueues _
    refine ⟨_, congrArg Host.Outcome.next ((if_pos hp).trans event), ?_, fun q hq => ?_, ?_, ?_, ?_, fun c => ?_,
      (v.event_frame _ fun u => u.detachPort_frame p).mono⟩
    · exact (v.event_detachPort_port p ((s.advance_raised _).trans hr)).trans (s.advance_detached p hh hp)
    · obtain ⟨k, ps, spec, told⟩ := v.event_spec fun u => u.detachPort p
      have port := (v.numbered.detachPort_port p q).trans (if_neg hq)
      have told := told q
      rw [spec]
      change Noticed ((v.numbered.detachPort p).port q) (ps.nth q) at told
      rwa [port] at told
    · rw [reads State.dfe fun _ _ _ _ => rfl, ← seen]
      exact v.numbered.detachPort_dfe p
    · rw [reads State.rds fun _ _ _ _ => rfl, ← aux]
      exact v.numbered.detachPort_rds p
    · rw [reads (fun t => t.cvt.trucks) fun _ _ _ _ => rfl, ← cvt]
      exact v.numbered.detachPort_trucks p
    · rw [reads (fun t => t.convoy c) fun _ _ _ _ => rfl, ← convoy]
      exact v.numbered.detachPort_convoy p c

end Sys2Proof.Machine
end

section
/-!
TESTS. The operations of the section interlock, run for every section on the layout of Table 1.8.
-/

namespace Sys2Proof.Tests

open Sys2Proof Sys2Proof.Machine

/-! ### Holding and giving back (R81, R88, R89) -/

example : ∀ x : Sec, (ready.holdSec 0 x).secHolder x = some 0 := by decide

/-- Without stock a section that is given back is free. -/
example : ∀ x : Sec, (((ready.holdSec 0 x).giveBack 0 x).sec x).dyn = .free := by decide

/-- A BAY with stock is PARKED. -/
example : ∀ n : Fin 9, ((((ready.modSec 5 fun q => { q with stock := n.1 }).holdSec 0 5).giveBack 0 5).sec 5).dyn
    = if n = 0 then .free else .parked := by decide

/-- A convoy gives back only what it holds. -/
example : ∀ x : Sec, ((ready.holdSec 0 x).giveBack 1 x).secHolder x = some 0 := by decide

/-- The same for a release by its resource. -/
example : ∀ x : Sec, ((ready.holdSec 0 x).releaseNow 1 (.sec x)).secHolder x = some 0 := by decide

/-- The first two holders differ, so the other's section is kept. -/
example : ∀ x : Sec, x ≠ 0 → x ≠ 1 → (rolling.holdSec 1 x).holds 0 1 = true := by decide

/-! ### Joining a queue and leaving it (R79) -/

example : ∀ x : Sec, (rolling.join 0 2 x (.sec x)).queue (.sec x) = [⟨0, x, 2, 0⟩] := by decide

example : ∀ x : Sec, ((rolling.join 0 2 x (.sec x)).road 0).req = .queued (.sec x) := by decide

example : ∀ x : Sec, ((rolling.join 0 2 x (.sec x)).withdraw 0).queue (.sec x) = [] := by decide

/-- A withdrawal leaves the other convoy's entry. -/
example : ∀ x : Sec, (((rolling.join 0 2 x (.sec x)).join 1 2 x (.sec x)).withdraw 0).queue (.sec x)
    = [⟨1, x, 2, 3⟩] := by decide

/-- The entry of the lower level stands ahead, whoever came first. -/
example : ∀ x : Sec, ((rolling.join 1 2 x (.sec x)).join 0 2 x (.sec x)).queue (.sec x)
    = [⟨0, x, 2, 0⟩, ⟨1, x, 2, 3⟩] := by decide

/-! ### The choice of a scan and the grant (R80 to R82) -/

/-- Of the sections in service, one that no convoy holds is granted to the front entry. -/
example : ∀ x : Sec, 2 ≤ x.1 → x.1 < 8 →
    (rolling.join 0 2 x (.sec x)).scanChoice (.sec x) = some ⟨0, x, 2, 0⟩ := by decide

/-- A HALTED part grants nothing. -/
example : ∀ x : Sec, ((halted rolling).join 0 2 x (.sec x)).scanChoice (.sec x) = none := by decide

example : ∀ x : Sec, (((rolling.join 0 2 x (.sec x)).grantTo (.sec x) ⟨0, x, 2, 0⟩).road 0).req = .idle := by decide

example : ∀ x : Sec, ((rolling.join 0 2 x (.sec x)).grantTo (.sec x) ⟨0, x, 2, 0⟩).secHolder x = some 0 := by decide

/-- What was granted is given back at once where nothing was occupied. -/
example : ∀ x : Sec, 2 ≤ x.1 →
    ((((rolling.join 0 2 x (.sec x)).grantTo (.sec x) ⟨0, x, 2, 0⟩).giveBack 0 x).sec x).dyn = .free := by decide

end Sys2Proof.Tests
end

section
/-!
SUPPORT. The rules of the Interlock's operations (R71 to R90): what each makes of sections, groups, wait queues and roads.
-/

namespace Sys2Proof.Machine

open Sys2Proof

set_option Elab.async false

namespace State

variable (s : State)

/-! ### Reading holders and queues -/

@[simp] theorem queue_sec (x : Sec) : s.queue (.sec x) = (s.sec x).queue := rfl

@[simp] theorem queue_grp (g : Grp) : s.queue (.grp g) = (s.grp g).queue := rfl

theorem secHolder_eq_none (x : Sec) : s.secHolder x = none ↔ ∀ c, (s.sec x).dyn ≠ .held c := by
  unfold secHolder
  cases (s.sec x).dyn <;> simp

theorem holds_iff (c : Conv) (x : Sec) : s.holds c x = true ↔ (s.sec x).dyn = .held c := by simp [holds]

theorem holds_iff_secHolder (c : Conv) (x : Sec) : s.holds c x = true ↔ s.secHolder x = some c := by
  rw [holds_iff, secHolder_eq_some]

theorem secHolder_congr {s t : State} {x : Sec} (h : (t.sec x).dyn = (s.sec x).dyn) :
    t.secHolder x = s.secHolder x := by rw [secHolder, secHolder, h]

theorem holds_congr {s t : State} {x : Sec} (h : (t.sec x).dyn = (s.sec x).dyn) (c : Conv) :
    t.holds c x = s.holds c x := by rw [holds, holds, h]

/-! ### An update of one queue (R79) -/

theorem sec_modQueue (r : Resource) (f : List Entry → List Entry) (x : Sec) : (s.modQueue r f).sec x =
    { s.sec x with queue := if r = .sec x then f (s.sec x).queue else (s.sec x).queue } := by
  cases r with
  | grp g => simp [modQueue]
  | sec y =>
    by_cases h : x = y
    · subst h
      simp [modQueue]
    · simp [modQueue, h, Ne.symm h]

theorem grp_modQueue (r : Resource) (f : List Entry → List Entry) (g : Grp) : (s.modQueue r f).grp g =
    { s.grp g with queue := if r = .grp g then f (s.grp g).queue else (s.grp g).queue } := by
  cases r with
  | sec y => simp [modQueue]
  | grp k =>
    by_cases h : g = k
    · subst h
      simp [modQueue]
    · simp [modQueue, h, Ne.symm h]

theorem queue_modQueue (r : Resource) (f : List Entry → List Entry) (y : Resource) :
    (s.modQueue r f).queue y = if y = r then f (s.queue r) else s.queue y := by
  cases y with
  | sec x =>
    rw [queue_sec, sec_modQueue]
    by_cases h : r = .sec x
    · simp [h]
    · simp [h, Ne.symm h]
  | grp g =>
    rw [queue_grp, grp_modQueue]
    by_cases h : r = .grp g
    · simp [h]
    · simp [h, Ne.symm h]

@[simp] theorem road_modQueue (r : Resource) (f : List Entry → List Entry) (c : Conv) :
    (s.modQueue r f).road c = s.road c := by cases r <;> rfl

@[simp] theorem dyn_modQueue (r : Resource) (f : List Entry → List Entry) (x : Sec) :
    ((s.modQueue r f).sec x).dyn = (s.sec x).dyn := by rw [sec_modQueue]

@[simp] theorem holder_modQueue (r : Resource) (f : List Entry → List Entry) (g : Grp) :
    ((s.modQueue r f).grp g).holder = (s.grp g).holder := by rw [grp_modQueue]

@[simp] theorem queue_modRoad (c : Conv) (f : Road → Road) (y : Resource) :
    (s.modRoad c f).queue y = s.queue y := by cases y <;> rfl

@[simp] theorem queue_raise (n : Notice) (who : Audience) (y : Resource) : (s.raise n who).queue y = s.queue y := by
  cases y <;> rfl

/-- An update of a section's state leaves its queue. -/
theorem queue_modSec (x : Sec) (f : Section → Section) (h : (f (s.sec x)).queue = (s.sec x).queue) (y : Resource) :
    (s.modSec x f).queue y = s.queue y := by
  cases y with
  | grp g => rfl
  | sec z =>
    by_cases hz : z = x
    · subst hz
      simpa using h
    · simp [hz]

theorem queue_modGrp (g : Grp) (f : Group → Group) (h : (f (s.grp g)).queue = (s.grp g).queue) (y : Resource) :
    (s.modGrp g f).queue y = s.queue y := by
  cases y with
  | sec x => rfl
  | grp k =>
    by_cases hk : k = g
    · subst hk
      simpa using h
    · simp [hk]

/-! ### Withdrawal (R79) -/

theorem withdraw_queued {c : Conv} {r : Resource} (h : (s.road c).req = .queued r) : s.withdraw c =
    (s.modQueue r fun q => q.filter fun e => e.conv != c).modRoad c fun w => { w with req := .idle } := by
  rw [withdraw, h]

/-- A withdrawal makes the request IDLE, and changes no other road. -/
theorem road_withdraw (c d : Conv) :
    (s.withdraw c).road d = if d = c then { s.road c with req := .idle } else s.road d := by
  by_cases hd : d = c
  · subst hd
    unfold withdraw
    split
    · simp
    · rename_i h
      rw [if_pos rfl, ← h]
    · simp
  · unfold withdraw
    split <;> simp [hd]

/-- A withdrawal takes the convoy's entry out of the queue that it is QUEUED for. -/
theorem queue_withdraw (c : Conv) (r : Resource) : (s.withdraw c).queue r = s.queueWithout c r := by
  unfold withdraw queueWithout
  split
  · rename_i y h
    rw [queue_modRoad, queue_modQueue]
    by_cases hr : r = y
    · simp [hr, h]
    · simp [hr, h, Ne.symm hr]
  · rename_i h
    simp [h]
  · rename_i h
    simp [h]

theorem dyn_withdraw (c : Conv) (x : Sec) : ((s.withdraw c).sec x).dyn = (s.sec x).dyn := by
  unfold withdraw
  split <;> simp

theorem stock_withdraw (c : Conv) (x : Sec) : ((s.withdraw c).sec x).stock = (s.sec x).stock := by
  unfold withdraw
  split <;> simp [sec_modQueue]

theorem holder_withdraw (c : Conv) (g : Grp) : ((s.withdraw c).grp g).holder = (s.grp g).holder := by
  unfold withdraw
  split <;> simp

/-! ### The fork watch (R83) -/

/-- The watch of convoy `c` after its evaluation. -/
def watchAfter (c : Conv) : Watch :=
  match s.watchable c with
  | some m => if (s.road c).watch.index? = some m then (s.road c).watch else .awaiting m
  | none => (s.road c).watch

theorem modRoad_same {c : Conv} {f : Road → Road} (h : f (s.road c) = s.road c) : s.modRoad c f = s := by
  rw [road] at h
  rw [modRoad, h, tab_put_nth]

/-- The Interlock sees of an evaluation the convoy's watch alone. -/
theorem sil_evalWatch (c : Conv) :
    (s.evalWatch c).sil = (s.modRoad c fun w => { w with watch := s.watchAfter c }).sil := by
  have stays (h : s.watchAfter c = (s.road c).watch) :
      s.sil = (s.modRoad c fun w => { w with watch := s.watchAfter c }).sil := by rw [h, modRoad_same _ rfl]
  unfold evalWatch
  split
  · rename_i h
    exact stays (by simp [watchAfter, h])
  · rename_i m h
    split
    · rename_i hm
      exact stays (by simp [watchAfter, h, hm])
    · rename_i hm
      have after : s.watchAfter c = .awaiting m := by simp [watchAfter, h, hm]
      rw [after]
      dsimp only
      split
      · exact (markBranch_frame _ _) .interlock (by decide)
      · rfl

/-- A convoy without a route begins no watch. -/
theorem watchAfter_routeless {c : Conv} (h : (s.road c).route = []) : s.watchAfter c = (s.road c).watch := by
  simp [watchAfter, watchable, firstFork, forkFrom, h]

end State

end Sys2Proof.Machine
end

section
/-!
SUPPORT. The laws of O59 and O60 as a relation between the states before and after: the queue law, and that a HALTED part
gives no section and no group to anybody (`RoadLaws`); with the halt that no effect but RESUME_ALL, LAYOUT_RESET and a power
reset ends (`RoadKept`).
-/

namespace Sys2Proof.Machine

open Sys2Proof

set_option Elab.async false

/-! ### The relations of the proof -/

/-- No section and no group that nobody holds becomes held. -/
def UnheldStays (s t : State) : Prop :=
  (∀ x, s.secHolder x = none → t.secHolder x = none) ∧ ∀ g, (s.grp g).holder = none → (t.grp g).holder = none

/-- The two laws from one state to a later one. -/
structure RoadLaws (s t : State) : Prop where
  queues : QueuesAgree s → QueuesAgree t
  unheld : s.hls.halted = true → t.hls.halted = true → UnheldStays s t

/-- An effect that keeps the laws and leaves a HALTED part HALTED, so that effects compose. -/
structure RoadKept (s t : State) : Prop extends RoadLaws s t where
  halted : s.hls.halted = true → t.hls.halted = true

theorem UnheldStays.of_sil {s t : State} (h : t.sil = s.sil) : UnheldStays s t := by
  have sec (x : Sec) : t.sec x = s.sec x := congrArg (fun k : Interlock => k.sections.nth x) h
  have grp (g : Grp) : t.grp g = s.grp g := congrArg (fun k : Interlock => k.groups.nth g) h
  exact ⟨fun x hx => (State.secHolder_congr (by rw [sec])).trans hx, fun g hg => by rw [grp, hg]⟩

theorem UnheldStays.trans {s t u : State} (h : UnheldStays s t) (k : UnheldStays t u) : UnheldStays s u :=
  ⟨fun x hx => k.1 x (h.1 x hx), fun g hg => k.2 g (h.2 g hg)⟩

theorem RoadLaws.refl (s : State) : RoadLaws s s := ⟨id, fun _ _ => .of_sil rfl⟩

theorem RoadKept.refl (s : State) : RoadKept s s := ⟨.refl s, id⟩

/-- An effect that keeps a halt, and then one that keeps the laws. -/
theorem RoadKept.trans_laws {s t u : State} (h : RoadKept s t) (k : RoadLaws t u) : RoadLaws s u where
  queues hs := k.queues (h.queues hs)
  unheld hs hu := (h.unheld hs (h.halted hs)).trans (k.unheld (h.halted hs) hu)

theorem RoadKept.trans {s t u : State} (h : RoadKept s t) (k : RoadKept t u) : RoadKept s u :=
  ⟨h.trans_laws k.toRoadLaws, fun hs => k.halted (h.halted hs)⟩

theorem RoadKept.ite {s t u : State} {c : Prop} [Decidable c] (h : RoadKept s t) (k : RoadKept s u) :
    RoadKept s (if c then t else u) := by
  split
  · exact h
  · exact k

theorem RoadKept.forEach {α : Type} {f : State → α → State} (h : ∀ s a, RoadKept s (f s a)) (s : State) (l : List α) :
    RoadKept s (s.forEach l f) := State.forEach_inv (RoadKept s) f (fun _ a k => k.trans (h _ a)) s l (.refl s)

/-! ### What the laws read -/

/-- The queue law, where queues lose entries at most, the convoys that stand in them keep their requests, and no convoy
becomes UNFORMED with a road. -/
theorem QueuesAgree.of_sub {s t : State} (hq : ∀ r, ∀ e ∈ t.queue r, e ∈ s.queue r)
    (hr : ∀ r, ∀ e ∈ t.queue r, (t.road e.conv).req = (s.road e.conv).req)
    (hb : ∀ c, t.formed c = false → t.road c = Road.blank ∨ s.formed c = false ∧ t.road c = s.road c)
    (h : QueuesAgree s) : QueuesAgree t := by
  obtain ⟨queued, blank⟩ := h
  refine ⟨fun r e he => (hr r e he).trans (queued r e (hq r e he)), fun c hc => ?_⟩
  rcases hb c hc with road | ⟨unformed, road⟩
  · exact road
  · exact road.trans (blank c unformed)

/-- The laws read the Interlock, the halt, and which convoys are formed. -/
theorem RoadKept.of_sil {s t : State} (h : t.sil = s.sil) (hf : ∀ c, s.formed c = true → t.formed c = true)
    (hh : s.hls.halted = true → t.hls.halted = true) : RoadKept s t := by
  have queue (r : Resource) : t.queue r = s.queue r := by
    cases r <;> simp only [State.queue_sec, State.queue_grp, State.sec, State.grp, h]
  have road (c : Conv) : t.road c = s.road c := congrArg (fun k : Interlock => k.roads.nth c) h
  refine ⟨⟨.of_sub (fun r e he => queue r ▸ he) (fun r e _ => by rw [road]) fun c hc => .inr ⟨?_, road c⟩,
    fun _ _ => .of_sil h⟩, hh⟩
  exact Bool.eq_false_iff.mpr fun k => by simp [hf c k] at hc

/-- An effect that reaches neither road nor convoys nor the Halt Supervisor. -/
theorem RoadKept.of_frame {s t : State} {bs : List Block} (h : KeepsAllBut s t bs)
    (hb : Block.interlock ∉ bs ∧ Block.convoyTable ∉ bs ∧ Block.haltSupervisor ∉ bs := by decide) : RoadKept s t := by
  obtain ⟨road, convoys, halt⟩ := hb
  have cvt : t.cvt = s.cvt := h _ convoys
  have hls : t.hls = s.hls := h _ halt
  exact .of_sil (h _ road) (fun c hc => by simpa only [State.formed, State.convoy, cvt] using hc) fun hs => by rwa [hls]

/-- An effect on a RUNNING part has the queue law to keep. -/
theorem RoadKept.of_running {s t : State} (h : s.hls.halted = false) (hq : QueuesAgree s → QueuesAgree t) :
    RoadKept s t :=
  ⟨⟨hq, fun hs => by simp [h] at hs⟩, fun hs => by simp [h] at hs⟩

/-- An Interlock without entries, roads and holders satisfies every law. -/
theorem RoadLaws.of_empty {s t : State} (hq : ∀ r, t.queue r = []) (hr : ∀ c, t.road c = Road.blank)
    (hx : ∀ x, t.secHolder x = none) (hg : ∀ g, (t.grp g).holder = none) : RoadLaws s t :=
  ⟨fun _ => ⟨fun r e he => by simp [hq] at he, fun c _ => hr c⟩, fun _ _ => ⟨fun x _ => hx x, fun g _ => hg g⟩⟩

namespace State

variable (s : State)

theorem formed_iff (c : Conv) : s.formed c = true ↔ (s.convoy c).state ≠ .unformed := by simp [formed]

theorem unformed_iff (c : Conv) : s.formed c = false ↔ (s.convoy c).state = .unformed := by simp [formed]

/-! ### Single updates -/

/-- A convoy record may be changed into one that is formed, or one that has no road. -/
theorem modConvoy_kept (c : Conv) (f : Convoy → Convoy)
    (h : (f (s.convoy c)).state = .unformed → s.formed c = false ∨ s.road c = Road.blank) :
    RoadKept s (s.modConvoy c f) := by
  refine ⟨⟨.of_sub (s := s) (fun r e he => by cases r <;> exact he) (fun _ _ _ => rfl) fun d hd => ?_,
    fun _ _ => .of_sil rfl⟩, id⟩
  rw [unformed_iff, convoy_modConvoy] at hd
  by_cases hc : d = c
  · subst hc
    rw [if_pos rfl] at hd
    exact (h hd).symm.imp id fun k => ⟨k, rfl⟩
  · rw [if_neg hc] at hd
    exact .inr ⟨(s.unformed_iff d).mpr hd, rfl⟩

theorem setState_kept (c : Conv) {st : ConvoyState} (h : st ≠ .unformed) : RoadKept s (s.setState c st) :=
  s.modConvoy_kept c _ fun k => absurd k h

/-- A road may be changed that keeps its request, if an UNFORMED convoy's stays blank. -/
theorem modRoad_kept (c : Conv) (f : Road → Road) (hr : (f (s.road c)).req = (s.road c).req)
    (hb : s.formed c = false → s.road c = Road.blank → f (s.road c) = Road.blank) : RoadKept s (s.modRoad c f) := by
  refine ⟨⟨fun ⟨queued, blank⟩ => ⟨fun r e he => ?_, fun d hd => ?_⟩, fun _ _ => ⟨fun _ => id, fun _ => id⟩⟩, id⟩
  · rw [queue_modRoad] at he
    have := queued r e he
    by_cases hc : e.conv = c
    · rw [hc, road_modRoad_self, hr, ← hc, this]
    · rw [road_modRoad_ne _ _ hc, this]
  · have unformed : s.formed d = false := hd
    by_cases hc : d = c
    · subst hc
      rw [road_modRoad_self]
      exact hb unformed (blank d unformed)
    · rw [road_modRoad_ne _ _ hc]
      exact blank d unformed

/-- A section may be changed that keeps its queue, and becomes held in a RUNNING part only. -/
theorem modSec_kept (x : Sec) (f : Section → Section) (hq : (f (s.sec x)).queue = (s.sec x).queue)
    (hu : s.hls.halted = true → s.secHolder x = none → ∀ c, (f (s.sec x)).dyn ≠ .held c) :
    RoadKept s (s.modSec x f) := by
  have queue := s.queue_modSec x f hq
  refine ⟨⟨.of_sub (s := s) (fun r e he => queue r ▸ he) (fun _ _ _ => rfl) fun c hc => .inr ⟨hc, rfl⟩,
    fun hs _ => ⟨fun y hy => ?_, fun _ => id⟩⟩, id⟩
  by_cases hyx : y = x
  · subst hyx
    rw [secHolder_eq_none, sec_modSec_self]
    exact hu hs hy
  · rwa [secHolder_congr (s := s) (by rw [sec_modSec_ne _ _ hyx])]

/-- A group may be given up. -/
theorem freeGroup_kept (g : Grp) : RoadKept s (s.modGrp g fun q => { q with holder := none }) := by
  have queue := s.queue_modGrp g (fun q => { q with holder := none }) rfl
  refine ⟨⟨.of_sub (s := s) (fun r e he => queue r ▸ he) (fun _ _ _ => rfl) fun c hc => .inr ⟨hc, rfl⟩,
    fun _ _ => ⟨fun _ => id, fun k hk => ?_⟩⟩, id⟩
  by_cases hg : k = g
  · subst hg
    rw [grp_modGrp_self]
  · rwa [grp_modGrp_ne _ _ hg]

theorem modHls_kept (f : HaltSupervisor → HaltSupervisor) (h : s.hls.halted = true → (f s.hls).halted = true) :
    RoadKept s (s.modHls f) := .of_sil rfl (fun _ => id) h

/-! ### Queues (R75, R77, R79) -/

theorem withdraw_kept (c : Conv) : RoadKept s (s.withdraw c) := by
  have frame := s.withdraw_frame c
  have hls : (s.withdraw c).hls = s.hls := frame .haltSupervisor (by decide)
  have cvt : (s.withdraw c).cvt = s.cvt := frame .convoyTable (by decide)
  refine ⟨⟨fun ⟨queued, blank⟩ => ⟨fun r e he => ?_, fun d hd => ?_⟩, fun _ _ => ⟨fun x hx => ?_, fun g hg => ?_⟩⟩,
    fun hs => by rwa [hls]⟩
  · have stays : e ∈ s.queue r ∧ e.conv ≠ c := by
      rw [queue_withdraw, queueWithout] at he
      split at he
      · simpa using he
      · rename_i hc
        exact ⟨he, fun k => hc (k ▸ queued r e he)⟩
    rw [road_withdraw, if_neg stays.2, queued r e stays.1]
  · have road : s.road d = ⟨[], .idle, .idle⟩ := blank d (by simpa only [formed, convoy, cvt] using hd)
    rw [road_withdraw]
    by_cases hc : d = c
    · rw [if_pos hc, ← hc, road]
    · rw [if_neg hc, road]
  · rwa [secHolder_congr (s.dyn_withdraw c x)]
  · rwa [s.holder_withdraw c g]

/-- A convoy that makes a request is formed, and its request is IDLE (R77). -/
theorem wanted_requests {c : Conv} {kx : Nat × Sec} (h : s.wanted c = some kx) :
    s.formed c = true ∧ (s.road c).req = .idle := by
  unfold wanted at h
  split at h
  · rename_i hc
    obtain ⟨may, idle⟩ := Bool.and_eq_true_iff.mp hc
    refine ⟨(s.formed_iff c).mpr fun k => ?_, by simpa using idle⟩
    simp [k, ConvoyState.mayRequest] at may
  · cases h

/-- Under the queue law a convoy whose request is IDLE has no entry. -/
theorem idle_no_entry (hs : QueuesAgree s) {c : Conv} (h : ∀ r, (s.road c).req ≠ .queued r) {r : Resource} {e : Entry}
    (he : e ∈ s.queue r) : e.conv ≠ c := fun k => h r (k ▸ hs.1 r e he)

theorem mem_insertEntry (e f : Entry) (l : List Entry) : f ∈ insertEntry e l ↔ f = e ∨ f ∈ l := by
  induction l with
  | nil => simp [insertEntry]
  | cons q l ih =>
    unfold insertEntry
    split
    · simp [ih, or_left_comm]
    · simp

theorem queue_join (c : Conv) (k : Nat) (x : Sec) (r y : Resource) : (s.join c k x r).queue y =
    if y = r then insertEntry ⟨c, x, k, s.entryLevel c⟩ (s.queue r) else s.queue y := by
  rw [join, queue_modRoad, queue_modQueue]

theorem road_join (c d : Conv) (k : Nat) (x : Sec) (r : Resource) :
    (s.join c k x r).road d = if d = c then { s.road c with req := .queued r } else s.road d := by
  rw [join, road_modRoad]
  simp

/-- The request of a convoy that has none may join a queue. -/
theorem join_kept {c : Conv} {k : Nat} {x : Sec} (h : s.wanted c = some (k, x)) (r : Resource) :
    RoadKept s (s.join c k x r) := by
  obtain ⟨formed, idle⟩ := s.wanted_requests h
  have frame := s.join_frame c k x r
  have hls : (s.join c k x r).hls = s.hls := frame .haltSupervisor (by decide)
  have cvt : (s.join c k x r).cvt = s.cvt := frame .convoyTable (by decide)
  refine ⟨⟨fun hs => ⟨fun y e he => ?_, fun d hd => ?_⟩, fun _ _ => ⟨fun y hy => ?_, fun g hg => ?_⟩⟩,
    fun hs => by rwa [hls]⟩
  · rw [queue_join] at he
    have old (hy : e ∈ s.queue y) : ((s.join c k x r).road e.conv).req = .queued y := by
      rw [road_join, if_neg (s.idle_no_entry hs (by simp [idle]) hy), hs.1 y e hy]
    split at he
    · rename_i hy
      rcases (mem_insertEntry _ _ _).mp he with rfl | he
      · rw [road_join, if_pos rfl, hy]
      · exact old (hy ▸ he)
    · exact old he
  · have unformed : s.formed d = false := by simpa only [State.formed, convoy, cvt] using hd
    have hc : d ≠ c := fun k => by simp [k, formed] at unformed
    rw [road_join, if_neg hc]
    exact hs.2 d unformed
  · rwa [secHolder_congr (s := s) (by simp [join])]
  · simpa [join] using hg

/-- The request of a convoy that has none may be REFUSED. -/
theorem refuse_kept {c : Conv} {k : Nat} {x : Sec} (h : s.wanted c = some (k, x)) (r : Resource) :
    RoadKept s (s.refuse c x r) := by
  obtain ⟨formed, idle⟩ := s.wanted_requests h
  refine ⟨⟨fun hs => ?_, fun _ _ => ⟨fun _ => id, fun _ => id⟩⟩, id⟩
  have queue (y : Resource) : (s.refuse c x r).queue y = s.queue y := by cases y <;> rfl
  have road (d : Conv) (hd : d ≠ c) : (s.refuse c x r).road d = s.road d :=
    s.road_modRoad_ne (fun w => { w with req := .refused }) hd
  refine ⟨fun y e he => ?_, fun d (hd : s.formed d = false) => ?_⟩
  · rw [queue] at he
    rw [road _ (s.idle_no_entry hs (by simp [idle]) he), hs.1 y e he]
  · rw [road _ fun k => by simp [k, formed] at hd]
    exact hs.2 d hd

/-! ### Units, targets and states (R54, R107, R109, R122) -/

theorem setUnit_kept (c : Conv) (u : Nat) (r : RunState) : RoadKept s (s.setUnit c u r) := .of_frame (s.setUnit_frame c u r)
theorem hardStop_kept (a : Addr) : RoadKept s (s.hardStop a) := .of_frame (s.hardStop_frame a)
theorem raise_kept (n : Notice) (who : Audience) : RoadKept s (s.raise n who) := .of_frame (s.raise_frame n who)
theorem modTrack_kept (c : Conv) (f : Track → Track) : RoadKept s (s.modTrack c f) := .of_frame (s.modTrack_frame c f)
theorem modRds_kept (f : Dispatcher → Dispatcher) : RoadKept s (s.modRds f) := .of_frame (s.modRds_frame f)
theorem modPort_kept (p : Port) (f : PortState → PortState) : RoadKept s (s.modPort p f) :=
  .of_frame (s.modPort_frame p f)
theorem setMap_kept (m : LayoutMap) : RoadKept s (s.setMap m) := .of_frame (s.setMap_frame m)
theorem retarget_kept (c : Conv) (st : ConvoyState) : RoadKept s (s.retarget c st) := .of_frame (s.retarget_frame c st)
theorem recomputeTarget_kept (c : Conv) : RoadKept s (s.recomputeTarget c) := .of_frame (s.recomputeTarget_frame c)
theorem restartUnits_kept (c : Conv) : RoadKept s (s.restartUnits c) := .of_frame (s.restartUnits_frame c)
theorem hardStopAll_kept (c : Conv) : RoadKept s (s.hardStopAll c) := .of_frame (s.hardStopAll_frame c)
theorem unitsDown_kept (c : Conv) : RoadKept s (s.unitsDown c) := .of_frame (s.unitsDown_frame c)
theorem standDown_kept (c : Conv) : RoadKept s (s.standDown c) := .of_frame (s.standDown_frame c)
theorem standRest_kept (c : Conv) : RoadKept s (s.standRest c) := .of_frame (s.standRest_frame c)
theorem modRecord_kept (c : Conv) (j : Nat) (f : Crossing → Crossing) : RoadKept s (s.modRecord c j f) :=
  .of_frame (s.modRecord_frame c j f)
theorem updateAllBranches_kept (c : Conv) : RoadKept s (s.updateAllBranches c) := .of_frame (s.updateAllBranches_frame c)
theorem memberBranch_kept (c : Conv) (k j : Nat) : RoadKept s (s.memberBranch c k j) :=
  .of_frame (s.memberBranch_frame c k j)
theorem afterPassage_kept (c : Conv) (k j : Nat) : RoadKept s (s.afterPassage c k j) :=
  .of_frame (s.afterPassage_frame c k j)
theorem anyOrder_kept {α : Type} (l : List α) : RoadKept s (s.anyOrder l).2 := .of_frame (s.anyOrder_frame l)

theorem restart_kept (c : Conv) : RoadKept s (s.restart c) := by
  unfold restart
  refine RoadKept.trans ?_ (restartUnits_kept _ c)
  exact (s.retarget_kept c _).trans (.ite (setState_kept _ c (by decide)) (.refl _))

theorem tellEffective_kept (c : Conv) : RoadKept s (s.tellEffective c) :=
  .ite (s.restart_kept c) (s.recomputeTarget_kept c)

theorem leaderStopped_kept (c : Conv) : RoadKept s (match s.leader? c with | some a => s.hardStop a | none => s) := by
  split
  · exact s.hardStop_kept _
  · exact .refl s

theorem enterWaiting_kept (c : Conv) : RoadKept s (s.enterWaiting c) :=
  (((s.setState_kept c (st := .waiting) (by decide)).trans (leaderStopped_kept _ c)).trans (standDown_kept _ c)).trans
    (raise_kept _ _ _)

theorem checkArrived_kept (c : Conv) : RoadKept s (s.checkArrived c) :=
  .ite (((s.setState_kept c (by decide)).trans (standRest_kept _ c)).trans (raise_kept _ _ _)) (.refl s)

theorem enterArriving_kept (c : Conv) : RoadKept s (s.enterArriving c) :=
  (((s.setState_kept c (st := .arriving) (by decide)).trans (leaderStopped_kept _ c)).trans (standDown_kept _ c)).trans
    (checkArrived_kept _ c)

/-! ### The fork watch (R83 to R85) -/

theorem cancelWatch_kept (c : Conv) : RoadKept s (s.cancelWatch c) :=
  s.modRoad_kept c _ rfl fun _ h => by rw [h]; rfl

/-- The evaluation of a watch keeps the laws: a convoy without a route begins none. -/
theorem evalWatch_kept (c : Conv) : RoadKept s (s.evalWatch c) := by
  have frame := s.evalWatch_frame c
  have watched : RoadKept s (s.modRoad c fun w => { w with watch := s.watchAfter c }) :=
    s.modRoad_kept c _ rfl fun _ h => by rw [s.watchAfter_routeless (congrArg Road.route h), h]
  have hls : (s.evalWatch c).hls = s.hls := frame .haltSupervisor (by decide)
  have cvt : (s.evalWatch c).cvt = s.cvt := frame .convoyTable (by decide)
  have formed (d : Conv) : (s.evalWatch c).formed d = s.formed d := by simp only [State.formed, convoy, cvt]
  exact watched.trans (.of_sil (s.sil_evalWatch c) (fun d hd => (formed d).trans hd) fun hs => by rwa [hls])

/-- A watch that runs belongs to a formed convoy, and may go on. -/
theorem setWatch_kept (c : Conv) (w : Watch) (h : (s.road c).watch ≠ .idle) :
    RoadKept s (s.modRoad c fun r => { r with watch := w }) :=
  s.modRoad_kept c _ rfl fun _ k => absurd (congrArg Road.watch k) h

theorem watchEffective_kept (c : Conv) (m : Nat) (h : (s.road c).watch ≠ .idle) : RoadKept s (s.watchEffective c m) := by
  unfold watchEffective
  exact (s.setWatch_kept c _ h).trans (.ite (tellEffective_kept _ c) (.refl _))

theorem watchFrame_kept (c : Conv) : RoadKept s (s.watchFrame c) := by
  unfold watchFrame
  split
  · rename_i m h
    have runs : (s.road c).watch ≠ .idle := by simp [h]
    exact .ite (s.watchEffective_kept c m runs) (s.setWatch_kept c _ runs)
  all_goals exact .refl s

theorem settled_kept (c : Conv) : RoadKept s (s.settled c) := by
  unfold settled
  split
  · rename_i h
    exact s.watchEffective_kept c _ (by simp [h])
  all_goals exact .refl s

/-! ### Grants (R81, R82) -/

theorem holdSec_kept (c : Conv) (x : Sec) (h : s.hls.halted = false) : RoadKept s (s.holdSec c x) :=
  s.modSec_kept x _ rfl fun hs => by simp [h] at hs

theorem holdResource_kept (c : Conv) (r : Resource) (h : s.hls.halted = false) : RoadKept s (s.holdResource c r) := by
  refine .of_running h fun hs => ?_
  have frame := s.holdResource_frame c r
  have cvt : (s.holdResource c r).cvt = s.cvt := frame .convoyTable (by decide)
  have rest : (∀ y, (s.holdResource c r).queue y = s.queue y) ∧ (s.holdResource c r).sil.roads = s.sil.roads := by
    have sections (t : State) (l : List Sec) : (∀ y, (t.forEach l fun s x => s.holdSec c x).queue y = t.queue y)
        ∧ (t.forEach l fun s x => s.holdSec c x).sil.roads = t.sil.roads :=
      forEach_inv (fun u => (∀ y, u.queue y = t.queue y) ∧ u.sil.roads = t.sil.roads) _
        (fun u x ⟨hq, hr⟩ => ⟨fun y => (u.queue_modSec x _ (by rfl) y).trans (hq y), hr⟩) t l ⟨fun _ => rfl, rfl⟩
    cases r with
    | sec x => exact ⟨s.queue_modSec x _ rfl, rfl⟩
    | grp g =>
      obtain ⟨hq, hr⟩ := sections (s.modGrp g fun q => { q with holder := some c }) (s.map.listed g)
      exact ⟨fun y => (hq y).trans (s.queue_modGrp g _ rfl y), hr⟩
  obtain ⟨queue, roads⟩ := rest
  have road (d : Conv) : (s.holdResource c r).road d = s.road d := congrArg (fun k => Tab.nth k d) roads
  exact .of_sub (fun y e he => queue y ▸ he) (fun _ e _ => by rw [road])
    (fun d hd => .inr ⟨by simpa only [State.formed, convoy, cvt] using hd, road d⟩) hs

/-- The entry that a scan grants to waits in the queue, in a part that is RUNNING (R82). -/
theorem scanChoice_some {r : Resource} {e : Entry} (h : s.scanChoice r = some e) :
    s.hls.halted = false ∧ e ∈ s.queue r ∧ s.eligible r e = true := by
  unfold scanChoice at h
  split at h
  · cases h
  · rename_i hh
    exact ⟨by simpa using hh, List.mem_of_find?_eq_some h, List.find?_some h⟩

theorem grantTo_kept {r : Resource} {e : Entry} (h : s.hls.halted = false) (he : e ∈ s.queue r) :
    RoadKept s (s.grantTo r e) := by
  refine .of_running h fun hs => ?_
  have left := s.withdraw_queued (hs.1 r e he)
  have halted : (s.withdraw e.conv).hls.halted = false :=
    (congrArg HaltSupervisor.halted (s.withdraw_frame e.conv .haltSupervisor (by decide))).trans h
  have held : RoadKept s ((s.withdraw e.conv).holdResource e.conv r) :=
    (s.withdraw_kept e.conv).trans (holdResource_kept _ _ _ halted)
  rw [left] at held
  exact (((held.trans (raise_kept _ _ _)).trans (evalWatch_kept _ e.conv)).trans
    (.ite (tellEffective_kept _ e.conv) (.refl _))).queues hs

theorem scanFuel_kept (fuel : Nat) (r : Resource) : RoadKept s (s.scanFuel fuel r) := by
  induction fuel generalizing s r with
  | zero => exact .refl s
  | succ n ih =>
    unfold scanFuel
    split
    · exact .refl s
    · rename_i e h
      obtain ⟨running, he, -⟩ := s.scanChoice_some h
      refine (s.grantTo_kept running he).trans ?_
      dsimp only
      split
      · exact .refl _
      · rename_i k x hw
        exact .ite (refuse_kept _ hw _) ((join_kept _ hw _).trans (ih _ _))

theorem scan_kept (r : Resource) : RoadKept s (s.scan r) := s.scanFuel_kept _ r

theorem scanAll_kept (rs : List Resource) : RoadKept s (s.scanAll rs) :=
  (s.anyOrder_kept _).trans (.forEach scan_kept _ _)

theorem request_kept (c : Conv) : RoadKept s (s.request c) := by
  unfold request
  split
  · exact .refl s
  · rename_i k x hw
    exact .ite (s.refuse_kept hw _) ((s.join_kept hw _).trans (scan_kept _ _))

/-! ### Releases (R86 to R90) -/

theorem restState_unheld (x : Sec) (c : Conv) : s.restState x ≠ .held c := by
  unfold restState
  split <;> simp

theorem toRest_kept (x : Sec) : RoadKept s (s.toRest x) :=
  s.modSec_kept x _ rfl fun _ _ c => s.restState_unheld x c

theorem clearanceOver_kept (x : Sec) : RoadKept s (s.clearanceOver x) := (s.toRest_kept x).trans (scan_kept _ _)

theorem releaseNow_kept (c : Conv) (r : Resource) : RoadKept s (s.releaseNow c r) := by
  have given (t : State) (x : Sec) : RoadKept t (t.giveBack c x) := .ite (t.toRest_kept x) (.refl t)
  cases r with
  | sec x => exact given s x
  | grp g => exact (s.freeGroup_kept g).trans (.forEach given _ _)

theorem releaseList_kept (c : Conv) (rs : List Resource) : RoadKept s (s.releaseList c rs) :=
  .forEach (fun t r => t.releaseNow_kept c r) _ _

theorem clearFor_kept (c : Conv) (ms : Nat) (x : Sec) : RoadKept s (s.clearFor c ms x) :=
  .ite (s.modSec_kept x _ rfl fun _ _ _ => by simp) (.refl s)

theorem tailLeft_kept (c : Conv) (j : Nat) : RoadKept s (s.tailLeft c j) := by
  unfold tailLeft
  split
  · exact .refl s
  · split
    · exact s.clearFor_kept c _ _
    · exact .ite (.refl s) (.ite ((s.freeGroup_kept _).trans (.forEach (fun t x => t.clearFor_kept c _ x) _ _)) (.refl s))

theorem occupied_kept (x : Sec) : RoadKept s (s.occupied x) := by
  unfold occupied
  split
  · exact s.modSec_kept x _ rfl fun _ _ _ => by simp
  · exact s.modSec_kept x _ rfl fun _ _ _ => by simp
  · exact s.modSec_kept x _ rfl fun _ _ _ => by simp
  all_goals exact .refl s

/-! ### Faults and passages (R100 to R106, R111) -/

theorem interlockFault_kept (c : Conv) : RoadKept s (s.interlockFault c) :=
  ((s.withdraw_kept c).trans (cancelWatch_kept _ c)).trans (releaseList_kept _ c _)

theorem stopFaulty_kept (c : Conv) (f : ConvoyFault) : RoadKept s (s.stopFaulty c f) := by
  unfold stopFaulty
  refine .ite (.refl s) ?_
  refine RoadKept.trans ?_ (interlockFault_kept _ c)
  exact ((s.modConvoy_kept c _ (by simp)).trans (hardStopAll_kept _ c)).trans (unitsDown_kept _ c)

theorem fault_kept (c : Conv) (f : ConvoyFault) (n : Nat) : RoadKept s (s.fault c f n) :=
  ((s.stopFaulty_kept c f).trans (scanAll_kept _ _)).trans (raise_kept _ _ _)

theorem headAdvanced_kept (c : Conv) : RoadKept s (s.headAdvanced c) := by
  unfold headAdvanced
  refine RoadKept.trans ?_ (request_kept _ c)
  exact RoadKept.trans (.ite (s.cancelWatch_kept c) (.refl s)) (evalWatch_kept _ c)

theorem advanceTail_kept (c : Conv) (j : Nat) : RoadKept s (s.advanceTail c j) := by
  unfold advanceTail
  split
  · exact .refl s
  · exact .ite (((s.modTrack_kept c _).trans (tailLeft_kept _ c _)).trans (checkArrived_kept _ c)) (.refl s)

theorem memberCrossing_kept (c : Conv) (r : Crossing) : RoadKept s (s.memberCrossing c r) := by
  unfold memberCrossing
  refine RoadKept.trans ?_ (advanceTail_kept _ c _)
  refine RoadKept.trans ?_ (afterPassage_kept _ c _ _)
  refine RoadKept.trans ?_ (memberBranch_kept _ c _ _)
  refine RoadKept.trans ?_ (.ite (modRecord_kept _ c _ _) (.refl _))
  exact (s.modRecord_kept c r.j _).trans (.ite (.of_frame (handGap_frame _ c _ _ _ _)) (.refl _))

theorem leaderCrossing_kept (c : Conv) (x : Sec) : RoadKept s (s.leaderCrossing c x) := by
  have stops (t : State) : RoadKept t (t.noBrakeStop c x) := .ite (t.enterWaiting_kept c) (.refl t)
  unfold leaderCrossing
  refine RoadKept.trans ?_ (afterPassage_kept _ c _ _)
  refine RoadKept.trans (.trans (.trans ?_ (headAdvanced_kept _ c)) (recomputeTarget_kept _ c)) (stops _)
  refine RoadKept.trans ?_ (.ite (advanceTail_kept _ c _) (.refl _))
  exact (s.modTrack_kept c _).trans (memberBranch_kept _ c _ _)

theorem overrun_kept (c : Conv) (x : Sec) : RoadKept s (s.overrun c x) := by
  unfold overrun
  split
  · rename_i d _
    refine RoadKept.trans (.trans ?_ (raise_kept _ _ _)) (raise_kept _ _ _)
    exact ((s.stopFaulty_kept c _).trans (stopFaulty_kept _ d _)).trans (scanAll_kept _ _)
  · exact (s.occupied_kept x).trans (fault_kept _ c _ _)

theorem stray_kept (x : Sec) (d : Inp) : RoadKept s (s.stray x d) := by
  unfold stray
  split
  · exact (s.occupied_kept x).trans (raise_kept _ _ _)
  · exact (s.occupied_kept x).trans (raise_kept _ _ _)
  · exact (s.occupied_kept x).trans (raise_kept _ _ _)
  · exact s.fault_kept _ _ _
  · exact s.raise_kept _ _
  · exact .refl s

theorem entryPassage_kept (x : Sec) (d : Inp) : RoadKept s (s.entryPassage x d) := by
  unfold entryPassage
  split
  · exact s.memberCrossing_kept _ _
  · exact s.leaderCrossing_kept _ x
  · exact s.overrun_kept _ x
  · exact s.stray_kept x d

theorem brakePassage_kept (x : Sec) : RoadKept s (s.brakePassage x) := by
  unfold brakePassage
  split
  · rename_i c _
    refine (s.modTrack_kept c fun t => { t with brakeSeen := true }).trans ?_
    refine .ite (.ite (enterArriving_kept _ c) (.ite (.refl _) (enterWaiting_kept _ c))) (.ite ?_ (.refl _))
    exact modConvoy_kept _ c _ fun h => .inl ((unformed_iff _ c).mpr h)
  · exact .refl s

theorem gapLost_kept (c : Conv) (r : Crossing) : RoadKept s (s.gapLost c r) := by
  refine (s.modRecord_kept c r.j fun q => { q with running := false }).trans ?_
  unfold gapLost
  dsimp only
  split
  · exact fault_kept _ c _ _
  · exact .refl _

end State

end Sys2Proof.Machine
end

section
/-!
SUPPORT. Every command under the laws of O59 and O60: the requests, power and load, ports, inputs, timers and the slot.
-/

namespace Sys2Proof.Machine

open Sys2Proof

set_option Elab.async false

/-! ### Events and requests (R149, R150, R158) -/

/-- What the laws read, an event leaves as its effect made it. -/
theorem RoadLaws.event {s : State} {f : State → State} (h : RoadLaws s (f s.numbered)) : RoadLaws s (s.event f) := by
  obtain ⟨k, ps, spec, -⟩ := s.event_spec f
  rw [spec]
  exact ⟨h.queues, h.unheld⟩

/-- The laws hold over an event whose effect keeps them from every state. -/
theorem RoadLaws.of_effect {f : State → State} (s : State) (h : ∀ u, RoadLaws u (f u)) : RoadLaws s (s.event f) :=
  have k := h s.numbered
  .event ⟨k.queues, k.unheld⟩

theorem RoadLaws.ite {s t u : State} {c : Prop} [Decidable c] (h : c → RoadLaws s t) (k : ¬ c → RoadLaws s u) :
    RoadLaws s (if c then t else u) := by
  split
  · exact h ‹c›
  · exact k ‹¬ c›

/-- Time moves clearance timers and settle timers, and no request and no holder. -/
theorem State.advance_kept (s : State) (ms : Nat) : RoadKept s (s.advance ms) := by
  unfold advance
  split
  · exact .refl s
  · have sec (x : Sec) : (s.sil.sections.map fun q => { q with dyn := q.dyn.elapse ms }).nth x
        = { s.sec x with dyn := (s.sec x).dyn.elapse ms } := tab_nth_map _ _ _
    have road (c : Conv) : (s.sil.roads.map fun w => { w with watch := w.watch.elapse ms }).nth c
        = { s.road c with watch := (s.road c).watch.elapse ms } := tab_nth_map _ _ _
    refine ⟨⟨fun ⟨queued, blank⟩ => ⟨fun r e he => ?_, fun c hc => ?_⟩, fun _ _ => ⟨fun x hx => ?_, fun g => id⟩⟩, id⟩
    · have waits : e ∈ s.queue r := by
        cases r with
        | grp g => exact he
        | sec x => simpa only [State.queue_sec, State.sec, tab_nth_map] using he
      simpa only [State.road, tab_nth_map] using queued r e waits
    · exact (road c).trans (by rw [blank c hc]; rfl)
    · rw [State.secHolder_eq_none] at hx ⊢
      intro c
      simp only [State.sec, tab_nth_map]
      have := hx c
      cases h : (s.sec x).dyn <;> simp_all [State.sec, SecState.elapse]

theorem RoadLaws.atExpiry {f : State → State} (s : State) (left : Option Nat) (h : ∀ u, RoadLaws u (f u)) :
    RoadLaws s (s.atExpiry left f) := by
  cases left with
  | none => exact .refl s
  | some ms => exact (s.advance_kept ms).trans_laws (.of_effect _ h)

namespace State

variable (s : State)

/-- A request keeps the laws that its owner block keeps: the generic checks and the reply reach the ports alone. -/
theorem serve_laws (p : Port) (k : Kind) (tag : Byte) (owner : State → Result)
    (h : ∀ u, RoadLaws u (owner u).state) : RoadLaws s (s.serve p k tag owner) := by
  have sent (u : State) (r : Result) (hr : RoadLaws u r.state) : RoadLaws u (r.send p k tag) := by
    unfold Result.send
    split
    · exact ⟨hr.queues, hr.unheld⟩
    · exact hr
  unfold serve
  refine RoadLaws.ite (fun _ => .of_effect s fun u => ?_) fun _ => .refl s
  refine (u.modPort_kept p fun q => { q with receiver := .hunt }).trans_laws ?_
  refine RoadLaws.ite (fun _ => .refl _) fun _ => sent _ _ ?_
  unfold checked
  split
  · exact .refl _
  · split
    · exact .refl _
    · exact h _

theorem forConvoy_laws (p : Port) (reach : Reach) (body : List Byte) (owner : State → Conv → List Byte → Result)
    (h : ∀ u c rest, RoadLaws u (owner u c rest).state) : RoadLaws s (s.forConvoy p reach body owner).state := by
  unfold forConvoy
  split
  · exact .refl s
  · rename_i b rest
    split
    · exact .refl s
    · rename_i c _
      have noted : RoadKept s (if reach = .querying then s else s.noteConvoy p b c) :=
        .ite (.refl s) (.ite (.refl s) (s.modPort_kept p _))
      have answered (v : State) :
          RoadLaws v (if v.notOwner p c reach then v.refusal .notOwner else owner v c rest).state := by
        split
        · exact .refl v
        · exact h v c rest
      exact noted.trans_laws (answered _)

/-- A request that names a convoy and carries nothing after it. -/
theorem serve_bareLaws (p : Port) (k : Kind) (tag : Byte) (reach : Reach) (body : List Byte)
    (owner : State → Conv → Result) (h : ∀ u c, RoadLaws u (owner u c).state) :
    RoadLaws s (s.serve p k tag fun s => s.forConvoy p reach body fun s c rest => s.bare rest fun s => owner s c) :=
  s.serve_laws p k tag _ fun u => u.forConvoy_laws p reach body _ fun v c rest => by
    unfold bare
    split
    · exact h v c
    · exact .refl v

/-! ### Halts, the supply and the chord (R46, R160, R161, R165) -/

theorem forEach_hls {α : Type} {f : State → α → State} (h : ∀ t a, (f t a).hls = t.hls) (l : List α) :
    (s.forEach l f).hls = s.hls := forEach_keeps State.hls f h s l

/-- A cause that becomes present ends no halt (R160). -/
theorem causePresent_kept (c : Cause) : RoadKept s (s.causePresent c) := by
  have frame := s.causePresent_frame c
  have cvt : (s.causePresent c).cvt = s.cvt := frame .convoyTable (by decide)
  refine .of_sil (frame .interlock (by decide)) (fun d hd => by simpa only [formed, convoy, cvt] using hd) fun hs => ?_
  have put (h : HaltSupervisor) : (h.put c true).halted = h.halted := by cases c <;> rfl
  unfold causePresent
  dsimp only
  split
  · exact hs
  · have still : (s.modHls fun h => h.put c true).hls.halted = true := (put s.hls).trans hs
    rw [raise_hls, if_pos still]
    exact still

theorem causeAbsent_kept (c : Cause) : RoadKept s (s.causeAbsent c) :=
  s.modHls_kept _ fun hs => by cases c <;> exact hs

theorem compareSupply_kept : RoadKept s s.compareSupply := by
  have low : RoadKept s s.compareLow :=
    .ite (((s.modHls_kept _ id).trans (.of_frame (supplyLowered_frame _))).trans (raise_kept _ _ _)) (.refl s)
  have normal : RoadKept s s.compareNormal :=
    .ite (((s.modHls_kept _ id).trans (.of_frame (recomputeAllTargets_frame _))).trans (raise_kept _ _ _)) (.refl s)
  exact .ite normal low

theorem dfe_kept (d : FrontEnd) : RoadKept s { s with dfe := d } := .of_sil rfl (fun _ => id) id

theorem updateChord_kept : RoadKept s s.updateChord :=
  .ite ((s.dfe_kept { s.dfe with chord := true }).trans (causePresent_kept _ _))
    (.ite ((s.dfe_kept { s.dfe with chord := false }).trans (causeAbsent_kept _ _)) (.refl s))

/-! ### Map requests (R25 to R33) -/

theorem mapRequest_laws (f : Result) (h : RoadLaws s f.state) : RoadLaws s (s.mapRequest f).state := by
  unfold mapRequest
  split
  · exact .refl s
  · exact h

theorem readMap_laws (body : List Byte) : RoadLaws s (s.readMap body).state := by
  refine s.mapRequest_laws _ ?_
  split <;> exact .refl s

theorem editSection_laws (body : List Byte) : RoadLaws s (s.editSection body).state := by
  refine s.mapRequest_laws _ ?_
  split
  · exact .refl s
  · rename_i x r _
    split
    · refine ((s.setMap_kept _).trans (.ite (.refl _) (modSec_kept _ x _ rfl fun _ hx => ?_))).toRoadLaws
      exact (secHolder_eq_none _ x).mp hx
    · exact .refl s

theorem editZone_laws (body : List Byte) : RoadLaws s (s.editZone body).state := by
  refine s.mapRequest_laws _ ?_
  split
  · exact .refl s
  · split
    · exact .refl s
    · exact (s.setMap_kept _).toRoadLaws

theorem editDetector_laws (body : List Byte) : RoadLaws s (s.editDetector body).state := by
  refine s.mapRequest_laws _ ?_
  split
  · exact .refl s
  · exact (((s.setMap_kept _).trans (.of_frame (startInputs_frame _ _))).trans (updateChord_kept _)).toRoadLaws

theorem editGroup_laws (body : List Byte) : RoadLaws s (s.editGroup body).state := by
  refine s.mapRequest_laws _ ?_
  split
  · exact .refl s
  · split
    · exact (s.setMap_kept _).toRoadLaws
    · exact .refl s

theorem editSettings_laws (body : List Byte) : RoadLaws s (s.editSettings body).state := by
  refine s.mapRequest_laws _ ?_
  split
  · exact .refl s
  · rename_i t _
    split
    · have tested : RoadKept s (s.settingsTested t.clamped) :=
        ((s.setMap_kept _).trans (updateChord_kept _)).trans (compareSupply_kept _)
      rw [masked_state, setSettings_eq]
      exact (tested.trans (.ite (.refl _) (.of_frame (recomputePeriod_frame _)))).toRoadLaws
    · exact .refl s

theorem commitMap_laws (p : Port) (tag : Byte) (body : List Byte) : RoadLaws s (s.commitMap p tag body).state := by
  refine s.mapRequest_laws _ ?_
  split
  · exact (RoadKept.of_sil (s := s) (t := s.beginCommit p tag) rfl (fun _ => id) id).toRoadLaws
  · exact .refl s

theorem finishCommit_laws (k : Commit) (back : StoreContents) : RoadLaws s (s.finishCommit k back) := by
  unfold finishCommit commitReply
  refine RoadKept.toRoadLaws (RoadKept.trans (.of_frame (s.modMu_frame _)) (.ite ?_ (.refl _)))
  exact (modPort_kept _ _ _).trans (modPort_kept _ _ _)

/-! ### Trucks and owners (R50, R56 to R58) -/

theorem activate_kept (c : Conv) (a : Addr) : RoadKept s (s.activate c a) := .of_sil rfl (fun _ => id) id

/-- A truck that retires takes nothing of its convoy's record with it. -/
theorem retire_convoys (a : Addr) : (s.retire a).cvt.convoys = s.cvt.convoys := by
  unfold retire
  split <;> rfl

theorem retire_kept (a : Addr) : RoadKept s (s.retire a) := by
  have frame := s.retire_frame a
  have hls : (s.retire a).hls = s.hls := frame .haltSupervisor (by decide)
  refine .of_sil (frame .interlock (by decide)) (fun c hc => ?_) fun hs => by rwa [hls]
  rwa [formed, convoy, retire_convoys]

theorem orphan_kept (c : Conv) : RoadKept s (s.orphan c) := by
  unfold orphan
  split
  · rename_i hc
    refine (s.modConvoy_kept c (fun v => { v with owner := none }) fun h => ?_).trans (raise_kept _ _ _)
    exact absurd h ((s.formed_iff c).mp hc)
  · rename_i hc
    exact s.modConvoy_kept c _ fun _ => .inl (by simpa using hc)

theorem claim_laws (p : Port) (c : Conv) : RoadLaws s (s.claim p c).state := by
  unfold claim
  split
  · rw [accepted_state]
    exact (s.modConvoy_kept c _ fun h => .inl ((s.unformed_iff c).mpr h)).toRoadLaws
  · exact .refl s

theorem releaseClaim_laws (p : Port) (c : Conv) : RoadLaws s (s.releaseClaim p c).state := by
  unfold releaseClaim
  split
  · rw [convoyOk_state]
    exact (s.orphan_kept c).toRoadLaws
  · exact .refl s

/-! ### Convoy requests (R59 to R68) -/

theorem moveStock_kept (x : Sec) (m n : Nat) : RoadKept s (s.moveStock x m n) :=
  .ite (s.modSec_kept x _ rfl fun _ hx => (s.secHolder_eq_none x).mp hx) (.refl s)

theorem recomputePeriod_kept : RoadKept s s.recomputePeriod := s.modRds_kept _

/-- FORM in a RUNNING part gives an UNFORMED convoy, which no queue names, its section (R59, R60). -/
theorem formConvoy_kept (c : Conv) (x : Sec) (ms : List Member) (hh : s.hls.halted = false) (hc : s.formed c = false) :
    RoadKept s (s.formConvoy c x ms) := by
  refine .of_running hh fun hs => ?_
  have idle : (s.road c).req = .idle := by rw [hs.2 c hc]
  unfold formConvoy
  refine RoadLaws.queues (RoadKept.toRoadLaws ?_) hs
  refine RoadKept.trans (.trans ?_ (.forEach (fun t a => t.activate_kept c a) _ _)) (recomputePeriod_kept _)
  refine RoadKept.trans (.trans (.trans ?_ (moveStock_kept _ x 0 _)) (modTrack_kept _ c _)) (unitsDown_kept _ c)
  refine RoadKept.trans (.trans (s.modConvoy_kept c _ (by simp)) (holdSec_kept _ c x hh)) (modRoad_kept _ c _ ?_ ?_)
  · exact idle.symm
  · intro h
    have formed := (unformed_iff _ c).mp h
    rw [holdSec, convoy_modSec, convoy_modConvoy_self] at formed
    cases formed

theorem formIn_laws (c : Conv) (x : Sec) (ms : List Member) : RoadLaws s (s.formIn c x ms).state := by
  unfold formIn
  split
  · exact .refl s
  split
  · exact .refl s
  rename_i hc
  split
  · exact .refl s
  rename_i hh
  split
  · exact .refl s
  split
  · exact .refl s
  split
  · exact .refl s
  · exact (s.formConvoy_kept c x ms (by simpa using hh) (by simpa using hc)).toRoadLaws

theorem form_laws (p : Port) (c : Conv) (rest : List Byte) : RoadLaws s (s.form p c rest).state := by
  unfold form
  split
  · split
    · exact .refl s
    · split
      · split
        · exact .refl s
        · exact s.formIn_laws c _ _
      · exact .refl s
  · exact .refl s

theorem reformConvoy_kept (c : Conv) (x : Sec) (ms : List Member) : RoadKept s (s.reformConvoy c x ms) := by
  unfold reformConvoy
  refine RoadKept.trans ?_ (recomputePeriod_kept _)
  refine RoadKept.trans (.trans ?_ (moveStock_kept _ x _ _)) (unitsDown_kept _ c)
  refine RoadKept.trans ?_ (modConvoy_kept _ c _ fun h => .inl ((unformed_iff _ c).mpr h))
  exact (RoadKept.forEach retire_kept _ _).trans (.forEach (fun t a => t.activate_kept c a) _ _)

theorem reform_laws (c : Conv) (rest : List Byte) : RoadLaws s (s.reform c rest).state := by
  unfold reform reformWith
  split
  · exact .refl s
  split
  · exact .refl s
  split
  · exact .refl s
  split
  · exact .refl s
  split
  · exact .refl s
  split
  · exact .refl s
  split
  · exact .refl s
  · exact (s.reformConvoy_kept c _ _).toRoadLaws

/-- What DISBAND does before the convoy's road is blank (R63 steps 1 and 2). -/
theorem disbandRoad_req (c : Conv) (held : List Resource) :
    ((((s.withdraw c).cancelWatch c).releaseList c held).road c).req = .idle := by
  have roads (t : State) : (t.releaseList c held).sil.roads = t.sil.roads := by
    refine forEach_keeps (fun u => u.sil.roads) _ (fun u r => ?_) t held
    have given (v : State) (x : Sec) : (v.giveBack c x).sil.roads = v.sil.roads := by
      unfold giveBack
      split <;> rfl
    cases r with
    | sec x => exact given u x
    | grp g => exact forEach_keeps (fun v => v.sil.roads) _ given _ _
  have road := congrArg (fun k => Tab.nth k c) (roads ((s.withdraw c).cancelWatch c))
  refine (congrArg Road.req road).trans ?_
  change (((s.withdraw c).cancelWatch c).road c).req = .idle
  rw [cancelWatch, road_modRoad_self, road_withdraw, if_pos rfl]

theorem stockFrom_kept (c : Conv) : RoadKept s (s.stockFrom c) := by
  unfold stockFrom
  split
  · exact .ite (s.moveStock_kept _ _ _) (.refl s)
  · exact .refl s

/-- DISBAND: the convoy's entry leaves its queue before the road is blank, and the road is blank before the convoy is
UNFORMED (R63). -/
theorem disbandConvoy_kept (c : Conv) : RoadKept s (s.disbandConvoy c) := by
  have blanked (t : State) (h : (t.road c).req = .idle) : RoadKept t (t.modRoad c fun _ => Road.blank) :=
    t.modRoad_kept c _ h.symm fun _ _ => rfl
  have unroaded (t : State) (l : List Addr) (h : t.road c = Road.blank) :
      (t.forEach l retire).road c = Road.blank :=
    forEach_inv (fun u => u.road c = Road.blank) retire
      (fun u a hu => (congrArg (fun k : Interlock => k.roads.nth c) (u.retire_frame a .interlock (by decide))).trans hu)
      t l h
  unfold disbandConvoy
  refine RoadKept.trans ?_ (scanAll_kept _ _)
  refine RoadKept.trans ?_ (recomputePeriod_kept _)
  refine RoadKept.trans ?_ (modConvoy_kept _ c _ fun _ => .inr (unroaded _ _ ?_))
  · refine RoadKept.trans ?_ (.forEach retire_kept _ _)
    refine RoadKept.trans (.trans ?_ (blanked _ (disbandRoad_req _ c _))) (modTrack_kept _ c _)
    exact (((s.stockFrom_kept c).trans (withdraw_kept _ c)).trans (cancelWatch_kept _ c)).trans (releaseList_kept _ c _)
  · exact (road_modTrack _ _ _ _).trans (road_modRoad_self _ _ _)

theorem disband_laws (c : Conv) : RoadLaws s (s.disband c).state := by
  unfold disband
  split
  · rw [convoyOk_state]
    exact (s.disbandConvoy_kept c).toRoadLaws
  · exact .refl s

theorem setParams_laws (c : Conv) (rest : List Byte) : RoadLaws s (s.setParams c rest).state := by
  unfold setParams
  split
  · exact .refl s
  split
  · exact .refl s
  · exact ((s.modConvoy_kept c _ fun h => .inl ((s.unformed_iff c).mpr h)).trans
      (.of_frame (vmaxChanged_frame _ c))).toRoadLaws

theorem hold_laws (c : Conv) : RoadLaws s (s.hold c).state := by
  unfold hold
  split
  · exact (((s.modConvoy_kept c _ (by simp)).trans (hardStopAll_kept _ c)).trans (unitsDown_kept _ c)).toRoadLaws
  · exact .refl s

theorem unholdRolling_kept (c : Conv) : RoadKept s (s.unholdRolling c) := by
  unfold unholdRolling
  refine RoadKept.trans ?_ (restartUnits_kept _ c)
  refine RoadKept.trans ?_ (.ite ((setState_kept _ c (by decide)).trans (raise_kept _ _ _)) (setState_kept _ c (by decide)))
  exact ((s.request_kept c).trans (retarget_kept _ c _)).trans
    (modConvoy_kept _ c _ fun h => .inl ((unformed_iff _ c).mpr h))

theorem unholdArriving_kept (c : Conv) : RoadKept s (s.unholdArriving c) := by
  unfold unholdArriving
  refine RoadKept.trans (.trans ?_ (restartUnits_kept _ c)) (checkArrived_kept _ c)
  exact ((s.request_kept c).trans (retarget_kept _ c _)).trans (modConvoy_kept _ c _ (by simp))

theorem unhold_laws (c : Conv) : RoadLaws s (s.unhold c).state := by
  unfold unhold unholdConvoy
  split
  · exact .refl s
  · rw [convoyOk_state]
    split
    · exact (s.unholdArriving_kept c).toRoadLaws
    · exact (s.unholdRolling_kept c).toRoadLaws
    · exact (s.unholdRolling_kept c).toRoadLaws

theorem clearFaultOf_kept (c : Conv) : RoadKept s (s.clearFaultOf c) := by
  unfold clearFaultOf
  refine RoadKept.trans (.trans ?_ (evalWatch_kept _ c)) (scanAll_kept _ _)
  refine RoadKept.trans ?_ ((modTrack_kept _ c _).trans (modTrack_kept _ c _))
  refine RoadKept.trans (.trans ?_ (releaseList_kept _ c _)) (modRoad_kept _ c _ rfl fun _ h => ?_)
  · exact ((s.modConvoy_kept c _ (by simp)).trans (withdraw_kept _ c)).trans (cancelWatch_kept _ c)
  · rw [h]
    simp [Road.blank]

theorem clearFault_laws (p : Port) (c : Conv) : RoadLaws s (s.clearFault p c).state := by
  unfold clearFault
  split
  · exact .refl s
  split
  · exact .refl s
  · rw [convoyOk_state]
    exact (s.clearFaultOf_kept c).toRoadLaws

/-! ### Requests for road (R74 to R95) -/

/-- A queue whose entries keep their convoys keeps the queue law (R75 step 6). -/
theorem updateEntry_kept (c : Conv) (r : Resource) (k : Nat) (x : Sec) : RoadKept s (s.updateEntry c r k x) := by
  have frame : KeepsAllBut s (s.updateEntry c r k x) [.interlock] := s.modQueue_frame r _
  have hls : (s.updateEntry c r k x).hls = s.hls := frame .haltSupervisor (by decide)
  have cvt : (s.updateEntry c r k x).cvt = s.cvt := frame .convoyTable (by decide)
  have road (d : Conv) : (s.updateEntry c r k x).road d = s.road d := s.road_modQueue r _ d
  refine ⟨⟨fun ⟨queued, blank⟩ => ⟨fun y e he => ?_, fun d hd => ?_⟩, fun _ _ => ⟨fun y hy => ?_, fun g hg => ?_⟩⟩,
    fun hs => by rwa [hls]⟩
  · rw [road]
    rw [updateEntry, queue_modQueue] at he
    split at he
    · rename_i hy
      obtain ⟨f, hf, rfl⟩ := List.mem_map.mp he
      have := queued y f (hy ▸ hf)
      split <;> exact this
    · exact queued y e he
  · rw [road]
    exact blank d (by simpa only [State.formed, convoy, cvt] using hd)
  · have dyn : ((s.updateEntry c r k x).sec y).dyn = (s.sec y).dyn := s.dyn_modQueue r _ y
    rwa [secHolder_congr dyn]
  · rwa [updateEntry, holder_modQueue]

theorem leaveArrived_kept (c : Conv) : RoadKept s (s.leaveArrived c) := .ite (s.setState_kept c (by decide)) (.refl s)

/-- A refusal belongs to no entry. -/
theorem clearRefusal_kept (c : Conv) : RoadKept s (s.clearRefusal c) := by
  unfold clearRefusal
  split
  · rename_i h
    have refused := s.withdraw_kept c
    rwa [withdraw, h] at refused
  · exact .refl s

theorem finishRoute_kept (c : Conv) (rs : List Resource) : RoadKept s (s.finishRoute c rs) := by
  unfold finishRoute
  split
  · exact ((s.updateEntry_kept c _ _ _).trans (leaveArrived_kept _ c)).trans (scanAll_kept _ _)
  · refine RoadKept.trans ?_ (.ite (request_kept _ c) (.refl _))
    exact ((s.withdraw_kept c).trans (leaveArrived_kept _ c)).trans (scanAll_kept _ _)

/-- SET_ROUTE gives a route to a convoy that is formed (R74 check 3, R75). -/
theorem setRoute_kept (c : Conv) (new : List Sec) (h : s.formed c = true) : RoadKept s (s.setRoute c new) := by
  have formed (rs : List Resource) : (s.releaseList c rs).formed c = true := by
    rwa [State.formed, convoy, s.releaseList_frame c rs .convoyTable (by decide)]
  unfold setRoute installRoute
  refine RoadKept.trans ?_ (finishRoute_kept _ c _)
  refine RoadKept.trans (.trans ?_ (updateAllBranches_kept _ c)) (evalWatch_kept _ c)
  refine RoadKept.trans (.trans (s.releaseList_kept c _) (modRoad_kept _ c _ rfl fun hf => ?_)) (modTrack_kept _ c _)
  exact absurd ((formed _).symm.trans hf) (by decide)

theorem routeRequest_laws (p : Port) (c : Conv) (rest : List Byte) : RoadLaws s (s.routeRequest p c rest).state := by
  unfold routeRequest routeWith
  split
  · split
    · exact .refl s
    split
    · exact .refl s
    rename_i hr
    split
    · exact .refl s
    · exact .refl s
    · split
      · exact .refl s
      · rw [convoyOk_state]
        refine (s.setRoute_kept c _ ((s.formed_iff c).mpr fun k => ?_)).toRoadLaws
        simp [k, ConvoyState.routable] at hr
  · exact .refl s

theorem startConvoy_kept (c : Conv) : RoadKept s (s.startConvoy c) := by
  unfold startConvoy
  refine RoadKept.trans (.trans (.trans ?_ (request_kept _ c)) (recomputeTarget_kept _ c)) (restartUnits_kept _ c)
  exact ((s.setState_kept c (by decide)).trans (updateAllBranches_kept _ c)).trans (evalWatch_kept _ c)

theorem start_laws (c : Conv) : RoadLaws s (s.start c).state := by
  unfold start
  split
  · exact .refl s
  · rw [convoyOk_state]
    exact (s.startConvoy_kept c).toRoadLaws

theorem retry_laws (c : Conv) : RoadLaws s (s.retry c).state := by
  unfold retry
  split
  · rw [convoyOk_state]
    exact ((s.clearRefusal_kept c).trans (request_kept _ c)).toRoadLaws
  · exact .refl s

theorem barSection_laws (body : List Byte) : RoadLaws s (s.barSection body).state := by
  unfold barSection
  split
  · exact .refl s
  split
  · rw [accepted_state]
    exact ((s.setMap_kept _).trans (modSec_kept _ _ _ rfl fun _ _ _ => by simp)).toRoadLaws
  · exact .refl s

theorem unbarSection_laws (body : List Byte) : RoadLaws s (s.unbarSection body).state := by
  unfold unbarSection
  split
  · exact .refl s
  split
  · exact .refl s
  split
  · exact .refl s
  · rw [accepted_state]
    exact ((s.setMap_kept _).trans (clearanceOver_kept _ _)).toRoadLaws

theorem clearSection_laws (body : List Byte) : RoadLaws s (s.clearSection body).state := by
  unfold clearSection
  split
  · exact .refl s
  split
  · rw [accepted_state]
    exact (s.clearanceOver_kept _).toRoadLaws
  · exact .refl s

theorem putStock_kept (x : Sec) (n : Nat) : RoadKept s (s.putStock x n) := by
  unfold putStock
  refine (s.modSec_kept x (fun q => { q with stock := n }) rfl fun _ hx => (s.secHolder_eq_none x).mp hx).trans ?_
  dsimp only
  split
  · exact toRest_kept _ x
  · exact .ite (clearanceOver_kept _ x) (.refl _)
  all_goals exact .refl _

theorem setStock_laws (body : List Byte) : RoadLaws s (s.setStock body).state := by
  unfold setStock
  split
  · exact .refl s
  split
  · exact (s.putStock_kept _ _).toRoadLaws
  · exact .refl s

theorem querySection_laws (body : List Byte) : RoadLaws s (s.querySection body).state := by
  unfold querySection
  split <;> exact .refl s

/-! ### Requests to the part (R44, R140, R152, R162 to R164) -/

theorem queryDetectors_laws (p : Port) (body : List Byte) : RoadLaws s (s.queryDetectors p body).state := by
  unfold queryDetectors
  split
  · rw [accepted_state]
    exact (s.dfe_kept _).toRoadLaws
  · exact .refl s

theorem auxRequest_laws (p : Port) (body : List Byte) : RoadLaws s (s.auxRequest p body).state := by
  unfold auxRequest auxWith
  split
  · exact .refl s
  split
  · exact .refl s
  split
  · exact .refl s
  split
  · exact .refl s
  split
  · exact .refl s
  · rw [accepted_state]
    exact (s.modRds_kept _).toRoadLaws

theorem setNotify_laws (p : Port) (body : List Byte) : RoadLaws s (s.setNotify p body).state := by
  unfold setNotify
  split
  · exact .refl s
  · exact ((s.modPort_kept p _).trans (.forEach (fun t n => t.modPort_kept p _) _ _)).toRoadLaws

theorem allStop_laws (body : List Byte) : RoadLaws s (s.allStop body).state := by
  unfold allStop
  split
  · rw [accepted_state]
    exact (s.causePresent_kept .request).toRoadLaws
  · exact .refl s

/-- RESUME_ALL ends the halt before it scans, so that what is granted is granted by a part that stays RUNNING (R163). -/
theorem resumeLayout_laws : RoadLaws s s.resumeLayout := by
  let running : State := s.modHls fun h => { h with request := false, halted := false }
  have restarted : RoadKept (running.scanAll allResources) (running.scanAll allResources).restartAll :=
    .forEach (fun t c => .ite (t.restart_kept c) (.refl t)) _ _
  have kept : RoadKept running s.resumeLayout := ((running.scanAll_kept _).trans restarted).trans (raise_kept _ _ _)
  have scanned (rs : List Resource) : (running.scanAll rs).hls = running.hls :=
    running.scanAll_frame rs .haltSupervisor (by decide)
  have rolled (t : State) : t.restartAll.hls = t.hls := t.restartAll_frame .haltSupervisor (by decide)
  have hls : s.resumeLayout.hls = running.hls := by
    rw [resumeLayout, raise_hls, rolled, scanned]
  exact ⟨kept.queues, fun _ h => by rw [hls] at h; cases h⟩

theorem resumeAll_laws (body : List Byte) : RoadLaws s (s.resumeAll body).state := by
  unfold resumeAll
  split
  · exact .refl s
  split
  · exact .refl s
  · rw [accepted_state]
    exact s.resumeLayout_laws

/-- LAYOUT_RESET leaves an Interlock without entries, roads and holders (R97). -/
theorem resetLayout_laws : RoadLaws s s.resetLayout := by
  have sil : s.resetLayout.sil = s.resetConvoys.resetInterlock.sil := rfl
  have sec (x : Sec) : s.resetLayout.sec x = s.resetConvoys.clearedSection x :=
    (congrArg (fun k : Interlock => k.sections.nth x) sil).trans (tab_nth_make _ _)
  have grp (g : Grp) : s.resetLayout.grp g = ⟨none, []⟩ :=
    (congrArg (fun k : Interlock => k.groups.nth g) sil).trans (tab_nth_all _ _)
  refine .of_empty (fun r => ?_) (fun c => ?_) (fun x => ?_) fun g => by rw [grp]
  · cases r with
    | sec x => rw [queue_sec, sec]; rfl
    | grp g => rw [queue_grp, grp]
  · exact (congrArg (fun k : Interlock => k.roads.nth c) sil).trans (tab_nth_all _ _)
  · rw [secHolder_eq_none, sec]
    intro c
    have rest := s.resetConvoys.restState_unheld x c
    simp only [clearedSection, clearedState]
    cases (s.resetConvoys.sec x).dyn <;> simp [rest]

theorem layoutReset_laws (body : List Byte) : RoadLaws s (s.layoutReset body).state := by
  unfold layoutReset
  split
  · rw [accepted_state]
    exact s.resetLayout_laws
  · exact .refl s

/-! ### Power and load (R20 to R24, R166) -/

theorem powerReset_laws (k : Pins) : RoadLaws s { s.powerReset with pins := k } := by
  have sec (x : Sec) : s.powerReset.sec x = ⟨.free, 0, []⟩ := tab_nth_all _ _
  have grp (g : Grp) : s.powerReset.grp g = ⟨none, []⟩ := tab_nth_all _ _
  have reset : RoadLaws s s.powerReset := by
    refine .of_empty (fun r => ?_) (fun c => tab_nth_all _ _) (fun x => ?_) fun g => by rw [grp]
    · cases r with
      | sec x => rw [queue_sec, sec]
      | grp g => rw [queue_grp, grp]
    · rw [secHolder, sec]
  exact ⟨reset.queues, reset.unheld⟩

theorem endHold_kept : RoadKept s s.endHold := .ite (.of_frame (s.modMu_frame _)) (.refl s)

theorem release_laws (mv : Nat) : RoadLaws s (s.release mv) := by
  have raised : RoadKept s { s.supplyLine mv with pins := { (s.supplyLine mv).pins with resetn := true } } :=
    .of_sil rfl (fun _ => id) id
  exact (raised.trans (endHold_kept _)).toRoadLaws

theorem supplyAt_laws (mv : Nat) : RoadLaws s (if mv < brownOutMv then s.enterBrownOut mv else s.supplyAt mv) := by
  refine .ite (fun _ => s.powerReset_laws _) fun _ => ?_
  have line : RoadKept s (s.supplyLine mv) := .of_sil rfl (fun _ => id) id
  exact (line.trans (.ite (compareSupply_kept _) (endHold_kept _))).toRoadLaws

/-- The Interlock of a loaded map has no entries, no roads and no holders (R96). -/
theorem finishLoad_laws (readable : Bool) : RoadLaws s (s.finishLoad readable) := by
  let m := (loaded s.mu.store readable).1
  let installed := s.mapLoaded readable
  have sec (x : Sec) : installed.sec x = ⟨if (m.sections.nth x).barred then .barred else .free, 0, []⟩ := tab_nth_make _ _
  have grp (g : Grp) : installed.grp g = ⟨none, []⟩ := tab_nth_all _ _
  have empty : RoadLaws s installed := by
    refine .of_empty (fun r => ?_) (fun c => tab_nth_all _ _) (fun x => ?_) fun g => by rw [grp]
    · cases r with
      | sec x => rw [queue_sec, sec]
      | grp g => rw [queue_grp, grp]
    · rw [secHolder_eq_none, sec]
      intro c
      dsimp only
      split <;> simp
  have started : RoadKept installed (s.finishLoad readable) := by
    rw [finishLoad_eq]
    have low (t : State) : RoadKept t t.compareLow :=
      .ite (((t.modHls_kept _ id).trans (.of_frame (supplyLowered_frame _))).trans (raise_kept _ _ _)) (.refl _)
    have inputs : RoadKept installed (s.inputsStarted readable) := .of_frame (startInputs_frame _ _)
    exact (inputs.trans (low _)).trans (.ite (raise_kept _ _ _) (.refl _))
  exact ⟨fun hs => started.queues (empty.queues hs), fun hs ht => (empty.unheld hs hs).trans (started.unheld hs ht)⟩

/-! ### Ports and inputs (R34 to R47, R146) -/

theorem attachPort_laws (p : Port) : RoadLaws s (s.attachPort p) := by
  unfold attachPort
  refine RoadKept.toRoadLaws (RoadKept.trans ?_ (.ite (raise_kept _ _ _) (.refl _)))
  exact .of_sil rfl (fun _ => id) id

theorem detachPort_laws (p : Port) : RoadLaws s (s.detachPort p) := by
  unfold detachPort
  refine RoadKept.toRoadLaws (RoadKept.trans ?_ (.forEach orphan_kept _ _))
  exact .of_sil rfl (fun _ => id) id

theorem lineCommand_laws (p : Port) (console : Bool) (f : State → State) (h : ∀ u, RoadLaws u (f u)) :
    RoadLaws s (s.lineCommand p console f) :=
  .ite (fun _ => .atExpiry s _ h) fun _ => (s.modPort_kept p _).toRoadLaws

theorem passage_kept (d : Inp) : RoadKept s (s.passage d) := by
  unfold passage
  refine .ite (.refl s) (RoadKept.trans (.of_frame (s.addSeen_frame d)) ?_)
  dsimp only
  split
  · exact entryPassage_kept _ _ d
  · exact brakePassage_kept _ _
  · exact .refl _

theorem setCond_kept (d : Inp) (c : InputState) (timer : Option Nat) : RoadKept s (s.setCond d c timer) :=
  .of_frame (s.modInput_frame d _)

theorem becomeActive_kept (d : Inp) : RoadKept s (s.becomeActive d) :=
  ((s.setCond_kept d _ _).trans (updateChord_kept _)).trans (passage_kept _ d)

theorem becomeInactive_kept (d : Inp) : RoadKept s (s.becomeInactive d) :=
  (s.setCond_kept d _ _).trans (updateChord_kept _)

theorem checkExpiry_kept (d : Inp) : RoadKept s (s.checkExpiry d) := by
  unfold checkExpiry
  split
  · exact .refl s
  · exact s.setCond_kept d _ _
  · exact .refl s
  · exact s.becomeActive_kept d
  · exact .refl s
  · exact s.becomeInactive_kept d

theorem wentActive_kept (d : Inp) : RoadKept s (s.wentActive d) := by
  unfold wentActive
  split
  · exact .refl s
  · exact s.setCond_kept d _ _
  · exact .ite (s.becomeActive_kept d) (s.setCond_kept d _ _)
  · exact .refl s
  · exact .refl s
  · exact s.setCond_kept d _ _

theorem wentInactive_kept (d : Inp) : RoadKept s (s.wentInactive d) := by
  unfold wentInactive
  split
  · exact .refl s
  · exact .ite (s.setCond_kept d _ _) (s.setCond_kept d _ _)
  · exact .refl s
  · exact s.setCond_kept d _ _
  · exact .ite (s.becomeInactive_kept d) (s.setCond_kept d _ _)
  · exact .refl s

theorem lineChange_kept (d : Inp) (high : Bool) : RoadKept s (s.lineChange d high) :=
  (RoadKept.of_frame (s.modInput_frame d _)).trans
    (.ite (.refl _) (.ite (wentActive_kept _ d) (wentInactive_kept _ d)))

/-! ### Timers and the radio slot (R111, R116, R130 to R143) -/

theorem withRecord_laws (c : Conv) (j : Nat) (f : State → Crossing → State) (h : ∀ u r, RoadKept u (f u r)) :
    RoadLaws s (s.withRecord c j f) := by
  unfold withRecord
  split
  · exact (h s _).toRoadLaws
  · exact .refl s

theorem tick_laws : RoadLaws s s.tick := by
  have ramped : RoadKept s (s.forEach s.activeTrucks rampTruck) := .forEach (fun t a => .of_frame (t.rampTruck_frame a)) _ _
  have next (t : State) : RoadKept t { t with hwg := { t.hwg with tickInMs := tickMs } } := .of_sil rfl (fun _ => id) id
  exact (ramped.trans (next _)).toRoadLaws

theorem frameReport_kept (a : Addr) : RoadKept s (s.frameReport a) := by
  unfold frameReport
  split
  · exact .of_sil rfl (fun _ => id) id
  · exact .ite (s.watchFrame_kept _) (.refl s)
  · exact .refl s

theorem lateness_kept (a : Addr) (usage : TruckUse) (deadline : Option Nat) : RoadKept s (s.lateness a usage deadline) := by
  unfold lateness
  split
  · exact .ite (s.raise_kept _ _) (.refl s)
  · exact .refl s

theorem sendFrame_kept (a : Addr) (horn coupler : Bool) : RoadKept s (s.sendFrame a horn coupler) := by
  have put : RoadKept s (s.putFrame a horn coupler) := .of_sil rfl (fun _ => id) id
  exact (put.trans (frameReport_kept _ a)).trans (lateness_kept _ a _ _)

theorem serveAux_kept (p : Port) : RoadKept s (s.serveAux p) := by
  unfold serveAux
  split
  · exact .refl s
  · have lights (t : State) (b : Addr) (f : RadioTruck → RadioTruck) (g : Dispatcher → Dispatcher) :
        RoadKept t ((t.modRadio b f).modRds g) := .of_sil rfl (fun _ => id) id
    exact (lights s _ _ _).trans (sendFrame_kept _ _ _ _)

theorem sendChoice_kept (choice : Choice) : RoadKept s (s.sendChoice choice) := by
  cases choice with
  | broadcast => exact .of_sil rfl (fun _ => id) id
  | stop a => exact s.sendFrame_kept a false false
  | branch a => exact s.sendFrame_kept a false false
  | due a => exact s.sendFrame_kept a false false
  | ramp a => exact (s.modRds_kept _).trans (sendFrame_kept _ a false false)
  | aux p => exact s.serveAux_kept p
  | early a => exact s.sendFrame_kept a false false
  | idle => exact .refl s

theorem slotDown_kept : RoadKept s s.slotDown :=
  ((s.modRds_kept _).trans ((modRds_kept _ _).trans (.ite (causePresent_kept _ .radio) (.refl _)))).trans
    (modRds_kept _ _)

theorem slotUp_kept : RoadKept s s.slotUp := by
  have modem : RoadKept s s.openSlot.modemUp :=
    (s.modRds_kept _).trans ((modRds_kept _ _).trans (.ite (causeAbsent_kept _ .radio) (.refl _)))
  exact (modem.trans (sendChoice_kept _ _)).trans (modRds_kept _ fun r => r.countAux _)

end State

/-! ### Every command, and every step -/

/-- What every command does to the queues and to road that nobody holds. -/
theorem exec_laws (s : State) (i : Instr) : ∃ t, exec i s = .next t ∧ RoadLaws s t :=
  match i with
  | .powerReset => ⟨_, rfl, .of_effect s fun u => u.powerReset_laws _⟩
  | .brownOut _ => ⟨_, rfl, .ite (fun _ => .of_effect s fun u => u.powerReset_laws _) fun _ => .refl s⟩
  | .powerResetRelease mv => ⟨_, rfl, .ite (fun _ => .of_effect s fun u => u.release_laws mv) fun _ => .refl s⟩
  | .endOfTheLoad readable => ⟨_, rfl, .ite (fun _ => .of_effect s fun u => u.finishLoad_laws readable) fun _ => .refl s⟩
  | .attach p => ⟨_, rfl, s.lineCommand_laws p true _ fun u => u.attachPort_laws p⟩
  | .detach p => ⟨_, rfl, s.lineCommand_laws p false _ fun u => u.detachPort_laws p⟩
  | .interByteGap p _ => ⟨_, rfl, .ite (fun _ => .of_effect s fun u => (u.modPort_kept p _).toRoadLaws) fun _ => .refl s⟩
  | .messageDiscarded p => ⟨_, rfl, .ite (fun _ => .of_effect s fun u => (u.modPort_kept p _).toRoadLaws) fun _ => .refl s⟩
  | .unknownKind p _ tag _ => ⟨_, rfl, s.serve_laws p _ tag _ fun u => .refl u⟩
  | .readMap p tag body => ⟨_, rfl, s.serve_laws p _ tag _ fun u => u.readMap_laws body⟩
  | .editSection p tag body => ⟨_, rfl, s.serve_laws p _ tag _ fun u => u.editSection_laws body⟩
  | .editZone p tag body => ⟨_, rfl, s.serve_laws p _ tag _ fun u => u.editZone_laws body⟩
  | .editDetector p tag body => ⟨_, rfl, s.serve_laws p _ tag _ fun u => u.editDetector_laws body⟩
  | .editGroup p tag body => ⟨_, rfl, s.serve_laws p _ tag _ fun u => u.editGroup_laws body⟩
  | .editSettings p tag body => ⟨_, rfl, s.serve_laws p _ tag _ fun u => u.editSettings_laws body⟩
  | .commitMap p tag body => ⟨_, rfl, s.serve_laws p _ tag _ fun u => u.commitMap_laws p tag body⟩
  | .commitEnd back => ⟨_, rfl, by
      unfold State.commitEnd
      split
      · exact .ite (fun _ => .of_effect s fun u => u.finishCommit_laws _ back) fun _ => .refl s
      · exact .refl s⟩
  | .queryDetectors p tag body => ⟨_, rfl, s.serve_laws p _ tag _ fun u => u.queryDetectors_laws p body⟩
  | .claim p tag body => ⟨_, rfl, s.serve_bareLaws p _ tag _ body _ fun u c => u.claim_laws p c⟩
  | .releaseClaim p tag body => ⟨_, rfl, s.serve_bareLaws p _ tag _ body _ fun u c => u.releaseClaim_laws p c⟩
  | .form p tag body => ⟨_, rfl, s.serve_laws p _ tag _ fun u =>
      u.forConvoy_laws p _ body _ fun v c rest => v.form_laws p c rest⟩
  | .reform p tag body => ⟨_, rfl, s.serve_laws p _ tag _ fun u =>
      u.forConvoy_laws p _ body _ fun v c rest => v.reform_laws c rest⟩
  | .disband p tag body => ⟨_, rfl, s.serve_bareLaws p _ tag _ body _ fun u c => u.disband_laws c⟩
  | .setParams p tag body => ⟨_, rfl, s.serve_laws p _ tag _ fun u =>
      u.forConvoy_laws p _ body _ fun v c rest => v.setParams_laws c rest⟩
  | .hold p tag body => ⟨_, rfl, s.serve_bareLaws p _ tag _ body _ fun u c => u.hold_laws c⟩
  | .unhold p tag body => ⟨_, rfl, s.serve_bareLaws p _ tag _ body _ fun u c => u.unhold_laws c⟩
  | .clearFault p tag body => ⟨_, rfl, s.serve_bareLaws p _ tag _ body _ fun u c => u.clearFault_laws p c⟩
  | .queryConvoy p tag body => ⟨_, rfl, s.serve_bareLaws p _ tag _ body _ fun u _ => .refl u⟩
  | .setRoute p tag body => ⟨_, rfl, s.serve_laws p _ tag _ fun u =>
      u.forConvoy_laws p _ body _ fun v c rest => v.routeRequest_laws p c rest⟩
  | .start p tag body => ⟨_, rfl, s.serve_bareLaws p _ tag _ body _ fun u c => u.start_laws c⟩
  | .retry p tag body => ⟨_, rfl, s.serve_bareLaws p _ tag _ body _ fun u c => u.retry_laws c⟩
  | .bar p tag body => ⟨_, rfl, s.serve_laws p _ tag _ fun u => u.barSection_laws body⟩
  | .unbar p tag body => ⟨_, rfl, s.serve_laws p _ tag _ fun u => u.unbarSection_laws body⟩
  | .clearSection p tag body => ⟨_, rfl, s.serve_laws p _ tag _ fun u => u.clearSection_laws body⟩
  | .setStock p tag body => ⟨_, rfl, s.serve_laws p _ tag _ fun u => u.setStock_laws body⟩
  | .querySection p tag body => ⟨_, rfl, s.serve_laws p _ tag _ fun u => u.querySection_laws body⟩
  | .aux p tag body => ⟨_, rfl, s.serve_laws p _ tag _ fun u => u.auxRequest_laws p body⟩
  | .setNotify p tag body => ⟨_, rfl, s.serve_laws p _ tag _ fun u => u.setNotify_laws p body⟩
  | .allStop p tag body => ⟨_, rfl, s.serve_laws p _ tag _ fun u => u.allStop_laws body⟩
  | .resumeAll p tag body => ⟨_, rfl, s.serve_laws p _ tag _ fun u => u.resumeAll_laws body⟩
  | .layoutReset p tag body => ⟨_, rfl, s.serve_laws p _ tag _ fun u => u.layoutReset_laws body⟩
  | .changeOfLogicalLevel d high => ⟨_, rfl, .of_effect s fun u => (u.lineChange_kept d high).toRoadLaws⟩
  | .checkTimerExpiry d => ⟨_, rfl, .atExpiry s _ fun u => (u.checkExpiry_kept d).toRoadLaws⟩
  | .clearanceTimerExpiry x => ⟨_, rfl, .atExpiry s _ fun u => (u.clearanceOver_kept x).toRoadLaws⟩
  | .settleTimerExpiry c => ⟨_, rfl, .atExpiry s _ fun u => (u.settled_kept c).toRoadLaws⟩
  | .gapTimerTlag c j => ⟨_, rfl, .atExpiry s _ fun u =>
      u.withRecord_laws c j _ fun v r => .of_frame (v.gapLag_frame c r)⟩
  | .gapTimerTlost c j => ⟨_, rfl, .atExpiry s _ fun u => u.withRecord_laws c j _ fun v r => v.gapLost_kept c r⟩
  | .rampTick => ⟨_, rfl, .atExpiry s _ State.tick_laws⟩
  | .slotStart ready => ⟨_, rfl, .atExpiry s _ fun u =>
      (RoadKept.ite (c := ready = true) u.slotUp_kept u.slotDown_kept).toRoadLaws⟩
  | .radioLost => ⟨_, rfl, .ite (fun _ => .atExpiry s _ fun u => u.slotDown_kept.toRoadLaws) fun _ => .refl s⟩
  | .supplyLow mv => ⟨_, rfl, .of_effect s fun u => u.supplyAt_laws mv⟩
  | .supplyOk mv => ⟨_, rfl, .of_effect s fun u => u.supplyAt_laws mv⟩
  | .flushTimerExpiry p => ⟨_, rfl, .atExpiry s _ fun u => (u.modPort_kept p _).toRoadLaws⟩
  | .batchStart p => ⟨_, rfl, .ite (fun _ => .of_effect s fun u => (u.modPort_kept p _).toRoadLaws) fun _ => .refl s⟩
  | .replySendStart p => ⟨_, rfl, .ite (fun _ => .of_effect s fun u => (u.modPort_kept p _).toRoadLaws) fun _ => .refl s⟩
  | .messageEnd p => ⟨_, rfl, .ite (fun _ => .refl s) fun _ => .of_effect s fun u => (u.modPort_kept p _).toRoadLaws⟩

/-- What every step does to the queues and to road that nobody holds, with a command waiting or by itself. -/
theorem step_laws {s t : State} (h : step s = .next t) : RoadLaws s t := by
  have ran {u : State} {i : Instr} (hu : exec i u = .next t) : RoadLaws u t := by
    obtain ⟨v, hv, laws⟩ := exec_laws u i
    obtain rfl : v = t := Host.Outcome.next.inj (hv.symm.trans hu)
    exact laws
  unfold step at h
  split at h
  · unfold State.runOn at h
    split at h
    · obtain rfl := Host.Outcome.next.inj h
      exact (s.advance_kept 1).toRoadLaws
    · exact ran h
    · have laws := ran h
      exact ⟨laws.queues, laws.unheld⟩
  · have laws := ran h
    exact ⟨laws.queues, laws.unheld⟩

/-- Settles O59: every effect either leaves a convoy's entry and its request together, or takes both away together. -/
theorem everyStepKeepsTheQueueLaw : Obligations.EveryStepKeepsTheQueueLaw := fun _ _ h => (step_laws h).queues

/-- Settles O60: a grant scan of a HALTED part finds nothing to grant (R82), and FORM is refused there (R59 check 5). -/
theorem nothingIsGrantedWhileHalted : Obligations.NothingIsGrantedWhileHalted := fun _ _ h hs ht =>
  (step_laws h).unheld hs ht

end Sys2Proof.Machine
end

section
/-!
SUPPORT. The request for road a convoy makes, the deadlock check and the place in the queue (R77 to R79).
-/

namespace Sys2Proof.Machine

open Sys2Proof

set_option Elab.async false

namespace State

variable (s : State)

/-! ### The section a request is for (R77) -/

/-- The first section of a list that `c` does not hold, by its place. -/
theorem firstUnheld_eq_some (c : Conv) (i : Nat) (l : List Sec) (k : Nat) (x : Sec) :
    s.firstUnheld c i l = some (k, x) ↔ ∃ n, k = i + n ∧ l[n]? = some x ∧ s.secHolder x ≠ some c
      ∧ ∀ m, m < n → ∃ y, l[m]? = some y ∧ s.secHolder y = some c := by
  induction l generalizing i with
  | nil => simp [firstUnheld]
  | cons y l ih =>
    rw [firstUnheld]
    split
    · rename_i held
      rw [holds_iff_secHolder] at held
      rw [ih]
      constructor
      · rintro ⟨n, rfl, at_n, unheld, before⟩
        refine ⟨n + 1, by omega, at_n, unheld, fun m hm => ?_⟩
        cases m with
        | zero => exact ⟨y, rfl, held⟩
        | succ m => exact before m (by omega)
      · rintro ⟨n, rfl, at_n, unheld, before⟩
        cases n with
        | zero =>
          obtain rfl : y = x := by simpa using at_n
          exact absurd held unheld
        | succ n => exact ⟨n, by omega, at_n, unheld, fun m hm => before (m + 1) (by omega)⟩
    · rename_i unheld
      rw [holds_iff_secHolder] at unheld
      constructor
      · intro h
        obtain ⟨rfl, rfl⟩ : i = k ∧ y = x := by simpa using h
        exact ⟨0, rfl, rfl, unheld, fun m hm => absurd hm (Nat.not_lt_zero m)⟩
      · rintro ⟨n, rfl, at_n, -, before⟩
        cases n with
        | zero =>
          obtain rfl : y = x := by simpa using at_n
          rfl
        | succ n =>
          obtain ⟨z, at_zero, held⟩ := before 0 (by omega)
          obtain rfl : y = z := by simpa using at_zero
          exact absurd held unheld

/-- The next index is the first beyond the head whose section the convoy does not hold. -/
theorem nextIndex_eq_some (c : Conv) (k : Nat) (x : Sec) : s.nextIndex c = some (k, x) ↔
    (s.track c).head < k ∧ (s.road c).route[k]? = some x ∧ s.secHolder x ≠ some c
      ∧ ∀ j, (s.track c).head < j → j < k → ∃ y, (s.road c).route[j]? = some y ∧ s.secHolder y = some c := by
  unfold nextIndex
  simp only [firstUnheld_eq_some, List.getElem?_drop]
  constructor
  · rintro ⟨n, rfl, at_n, unheld, before⟩
    refine ⟨by omega, at_n, unheld, fun j hj hk => ?_⟩
    have place : (s.track c).head + 1 + (j - ((s.track c).head + 1)) = j := by omega
    have held := before (j - ((s.track c).head + 1)) (by omega)
    rwa [place] at held
  · rintro ⟨beyond, at_k, unheld, before⟩
    have place : (s.track c).head + 1 + (k - ((s.track c).head + 1)) = k := by omega
    exact ⟨k - ((s.track c).head + 1), place.symm, by rwa [place], unheld, fun m hm => before _ (by omega) (by omega)⟩

theorem mayRequest_iff (st : ConvoyState) : st.mayRequest = true ↔ st ∈ [ConvoyState.rolling, .waiting, .held] := by
  cases st <;> decide

theorem wanted_eq_some (c : Conv) (k : Nat) (x : Sec) : s.wanted c = some (k, x) ↔
    (s.convoy c).state ∈ [ConvoyState.rolling, .waiting, .held] ∧ (s.road c).req = .idle
      ∧ k ≤ (s.track c).head + (s.convoy c).params.look ∧ s.nextIndex c = some (k, x) := by
  have asks : ((s.convoy c).state.mayRequest && (s.road c).req == .idle) = true ↔
      (s.convoy c).state ∈ [ConvoyState.rolling, .waiting, .held] ∧ (s.road c).req = .idle := by
    rw [Bool.and_eq_true, mayRequest_iff, beq_iff_eq]
  unfold wanted
  by_cases h : ((s.convoy c).state.mayRequest && (s.road c).req == .idle) = true
  · obtain ⟨state, idle⟩ := asks.mp h
    rw [if_pos h]
    cases s.nextIndex c with
    | none => simp
    | some next =>
      obtain ⟨j, y⟩ := next
      simp only [Option.ite_none_right_eq_some, Option.some.injEq, Prod.mk.injEq]
      constructor
      · rintro ⟨near, rfl, rfl⟩
        exact ⟨state, idle, near, rfl, rfl⟩
      · rintro ⟨-, -, near, rfl, rfl⟩
        exact ⟨near, rfl, rfl⟩
  · rw [if_neg h]
    constructor
    · simp
    · rintro ⟨state, idle, -⟩
      exact absurd (asks.mpr ⟨state, idle⟩) h

/-! ### The deadlock check (R78) -/

/-- The chain of waits closes where holders lead back to the convoy. -/
theorem chainCloses_iff (c : Conv) (fuel : Nat) (r : Resource) : s.chainCloses c fuel r = true ↔
    ∃ l, l.length ≤ fuel ∧ s.waitsAlong r l ∧ l.getLast? = some c := by
  induction fuel generalizing r with
  | zero =>
    constructor
    · simp [chainCloses]
    · rintro ⟨l, short, -, last⟩
      simp [List.eq_nil_of_length_eq_zero (by omega : l.length = 0)] at last
  | succ n ih =>
    constructor
    · intro h
      rw [chainCloses] at h
      split at h
      · cases h
      · rename_i d holder
        split at h
        · rename_i hd
          exact ⟨[d], by simp, ⟨holder, .inl rfl⟩, by simp [hd]⟩
        · split at h
          · rename_i y queued
            obtain ⟨l, short, along, last⟩ := (ih y).mp h
            have more : l ≠ [] := fun e => by simp [e] at last
            exact ⟨d :: l, by simpa using short, ⟨holder, .inr ⟨y, queued, along⟩⟩,
              by rwa [List.getLast?_cons_of_ne_nil more]⟩
          all_goals cases h
    · rintro ⟨l, short, along, last⟩
      cases l with
      | nil => simp at last
      | cons d l =>
        obtain ⟨holder, rest⟩ := along
        simp only [chainCloses, holder]
        by_cases hd : d = c
        · rw [if_pos hd]
        · rw [if_neg hd]
          have more : l ≠ [] := fun e => hd (by simpa [e] using last)
          obtain ⟨y, queued, along⟩ := rest.resolve_left more
          simp only [queued]
          exact (ih y).mpr ⟨l, by simpa using short, along, by rwa [List.getLast?_cons_of_ne_nil more] at last⟩

end State

/-! ### The place in the queue (R79) -/

theorem insertEntry_eq (e : Entry) (q : List Entry) : insertEntry e q =
    q.takeWhile (fun f => decide (f.level ≤ e.level)) ++ e :: q.dropWhile (fun f => decide (f.level ≤ e.level)) := by
  induction q with
  | nil => rfl
  | cons f q ih => by_cases h : f.level ≤ e.level <;> simp [insertEntry, h, ih]

/-- Settles O30: the request's conditions are read off `wanted`; the chain by induction on the convoys it may pass. -/
theorem requestsForRoadAreChosenCheckedAndQueued : Obligations.RequestsForRoadAreChosenCheckedAndQueued := by
  intro s c
  refine ⟨fun k x => ?_, s.chainCloses_iff c chainLimit, insertEntry_eq⟩
  rw [State.wanted_eq_some, State.nextIndex_eq_some]
  tauto

end Sys2Proof.Machine
end

section
/-!
SUPPORT. What the generic checks make of a request that names a convoy (R149 to R151): its port's last convoy is the named
one, and it reaches its owner block where the port may command the convoy.
-/

namespace Sys2Proof.Machine

open Sys2Proof

set_option Elab.async false

namespace State

variable (s : State)

/-! ### What an owner block sees -/

/-- The state an owner block sees: the event numbered, the receiver of the port in HUNT, its last convoy as given. -/
def sees (p : Port) (last : Option Conv) : State :=
  { s with
    eventNo := s.eventNo + 1
    ports := s.ports.put p { s.port p with receiver := .hunt, lastConvoy := last } }

theorem heard_eq_sees (p : Port) : s.heard p = s.sees p (s.port p).lastConvoy := rfl

theorem sees_frame (p : Port) (last : Option Conv) : KeepsAllBut s (s.sees p last) [.consolePorts] := fun b hb => by
  cases b
  case consolePorts => exact absurd (List.mem_singleton.mpr rfl) hb
  all_goals rfl

/-- A named convoy becomes the port's last (R150). -/
theorem noteConvoy_heard (p : Port) (b : Byte) (c : Conv) : (s.heard p).noteConvoy p b c = s.sees p (s.lastAfter p b c) := by
  by_cases hb : b = 0
  · simp [noteConvoy, lastAfter, hb, heard_eq_sees]
  · have nonzero : b.toNat ≠ 0 := fun h => hb (BitVec.eq_of_toNat_eq h)
    have last : s.lastAfter p b c = some c := if_neg hb
    simp [noteConvoy, last, nonzero, heard_eq_sees, sees, modPort, port]

/-! ### Answers -/

variable (p : Port) (last : Option Conv) (k : Kind) (tag : Byte)

theorem sees_answered (code : ReplyCode) (payload : List Byte) (f : State → State)
    (hf : ∀ n ps, f { s with eventNo := n, ports := ps } = { f s with eventNo := n, ports := ps })
    (hr : (f s).raised = []) (he : (f s).eventNo = s.eventNo) (hp : (f s).ports = s.ports) (hk : k.haltPayload = false) :
    (Result.send ⟨f (s.sees p last), some ⟨code, payload⟩⟩ p k tag).deliver.looked
      = (f s).replied p last (k.code ||| 0x80) tag code payload := by
  have seen : f (s.sees p last) = { f s with
      eventNo := s.eventNo + 1
      ports := s.ports.put p { s.port p with receiver := .hunt, lastConvoy := last } } := hf _ _
  simp only [Result.send, Kind.tail, hk, seen]
  rw [deliver_quiet _ (by simpa [reply] using hr)]
  simp [reply, replied, State.modPort, PortState.after, replyMessage, he, hp, State.port]

theorem sees_refused (code : ReplyCode) (detail : List Byte) (hr : s.raised = []) (hk : k.haltPayload = false) :
    (((s.sees p last).refusal code detail).send p k tag).deliver.looked
      = s.replied p last (k.code ||| 0x80) tag code detail :=
  s.sees_answered p last k tag code detail id (fun _ _ => rfl) hr rfl rfl hk

/-- The answer in a port: as in `PortState.after`. -/
theorem sees_reply_port {u : State} (hp : u.ports = (s.sees p last).ports) (code : ReplyCode) (payload : List Byte)
    (q : Port) : (u.reply p k.code tag ⟨code, payload⟩).port q =
      if q = p then (s.port p).after last (k.code ||| 0x80) tag code payload else s.port q := by
  by_cases hq : q = p
  · subst hq
    rw [reply, port_modPort_self, port, hp]
    simp [sees, PortState.after, replyMessage]
  · rw [reply, port_modPort_ne _ _ hq, port, hp, if_neg hq]
    exact perPort_nth_put_ne _ _ hq

/-- Where the owner block answers with state `u` and leaves the ports alone, the event ends in `u` but for what the
ports hold. -/
theorem sees_notices {u : State} (hp : u.ports = (s.sees p last).ports) (code : ReplyCode) (payload : List Byte)
    (hk : k.haltPayload = false) : ∃ n ps,
    (Result.send ⟨u, some ⟨code, payload⟩⟩ p k tag).deliver.looked = { u with raised := [], fresh := n, ports := ps }
      ∧ Answers s { u with raised := [], fresh := n, ports := ps } p last (k.code ||| 0x80) tag code payload := by
  have answered := s.sees_reply_port p last k tag hp code payload
  have quiet := (u.reply p k.code tag ⟨code, payload⟩).deliver_raised
  obtain ⟨n, l, ps, event, told⟩ := (u.reply p k.code tag ⟨code, payload⟩).deliver_differs
  rw [event] at quiet
  refine ⟨n, ps.map PortState.look, ?_, fun q => ?_⟩
  · simp only [Result.send, Kind.tail, hk, Bool.false_eq_true, if_false, List.append_nil]
    rw [event, show l = [] from quiet]
    rfl
  · obtain ⟨ns, fl, port⟩ := told q
    rw [answered q] at port
    refine ⟨ns, fl, ?_⟩
    rw [← port]
    exact perPort_nth_map _ _ q

end State

/-- A convoy request accepted with state `u`: the event ends in `u` but for what the ports hold. -/
theorem State.sees_convoyOk (s : State) (p : Port) (last : Option Conv) (k : Kind) (tag : Byte) (c : Conv) {u : State}
    (hp : u.ports = (s.sees p last).ports) (hk : k.haltPayload = false) : ∃ n ps t,
    ((u.convoyOk c).send p k tag).deliver.looked = t ∧ t = { u with raised := [], fresh := n, ports := ps }
      ∧ Answers s t p last (k.code ||| 0x80) tag .ok (t.shortPayload c) := by
  obtain ⟨n, ps, event, answers⟩ := s.sees_notices p last k tag hp .ok (u.shortPayload c) hk
  exact ⟨n, ps, _, event, rfl, answers⟩

/-- What the owner block leaves alone, the whole request leaves alone, the ports apart. -/
theorem KeepsAllBut.seen {s u : State} {p : Port} {last : Option Conv} {bs : List Block}
    (h : KeepsAllBut (s.sees p last) u bs) (n : Nat) (ps : PerPort PortState) :
    KeepsAllBut s { u with raised := [], fresh := n, ports := ps } (.consolePorts :: bs) :=
  fun b hb => by
    obtain ⟨hports, hbs⟩ := not_or.mp (mt List.mem_cons.mpr hb)
    have seen := s.sees_frame p last b (by simpa using hports)
    have owner := h b hbs
    cases b
    case consolePorts => exact absurd rfl hports
    all_goals exact Eq.trans owner seen

/-! ### Requests that name a convoy (R150) -/

section
variable {s : State} {p : Port} {b : Byte} {c : Conv} (k : Kind) (tag : Byte) (rest : List Byte)
  (owner : State → Conv → List Byte → Result)

/-- A convoy request passes the ownership check, or is refused by it. -/
theorem State.serve_named (h : Serves s p) (hn : s.named p b = some c) (hz : k.levelZero = false) :
    s.serve p k tag (fun s => s.forConvoy p .ownersOnly (b :: rest) owner) =
      (Result.send (if s.notOwner p c .ownersOnly then (s.sees p (s.lastAfter p b c)).refusal .notOwner
        else owner (s.sees p (s.lastAfter p b c)) c rest) p k tag).deliver.looked := by
  have block : (s.heard p).forConvoy p .ownersOnly (b :: rest) owner
      = if s.notOwner p c .ownersOnly then (s.sees p (s.lastAfter p b c)).refusal .notOwner
        else owner (s.sees p (s.lastAfter p b c)) c rest := by
    simp only [forConvoy, (s.heard_named p b).trans hn, reduceCtorEq, if_false, s.noteConvoy_heard p b c]
    rfl
  rw [s.serve_owner p k tag _ h fun hz' => by simp [hz] at hz', block]

/-- A port that may not command the convoy is refused. -/
theorem State.serve_notOwner (h : Serves s p) (hn : s.named p b = some c) (hz : k.levelZero = false)
    (hk : k.haltPayload = false) (ho : s.notOwner p c .ownersOnly = true) :
    s.serve p k tag (fun s => s.forConvoy p .ownersOnly (b :: rest) owner)
      = s.replied p (s.lastAfter p b c) (k.code ||| 0x80) tag .notOwner [] := by
  rw [s.serve_named k tag rest owner h hn hz, if_pos ho]
  exact s.sees_refused p _ k tag _ _ h.1 hk

theorem State.notOwner_of_owns (h : s.owns p c = true) : s.notOwner p c .ownersOnly = false := by
  simp only [owns, beq_iff_eq] at h
  simp [notOwner, h]

theorem State.notOwner_of_mayCommand (h : MayCommand s p c) : s.notOwner p c .ownersOnly = false := by
  rcases h with owns | level
  · exact s.notOwner_of_owns owns
  · simp [notOwner, level]

/-- A port that may command the convoy is answered by the owner block. -/
theorem State.serve_convoy (h : Serves s p) (hn : s.named p b = some c) (hz : k.levelZero = false)
    (ho : s.notOwner p c .ownersOnly = false) :
    s.serve p k tag (fun s => s.forConvoy p .ownersOnly (b :: rest) owner)
      = ((owner (s.sees p (s.lastAfter p b c)) c rest).send p k tag).deliver.looked := by
  rw [s.serve_named k tag rest owner h hn hz, if_neg (by simp [ho])]

end

/-! ### The test of a list as a route (R74 check 4) -/

/-- Entry `i` of a list departs from the occupied run, repeats an entry, is no successor of the one before it, or follows
a FORK as a FORK. -/
def EntryFails (m : LayoutMap) (run l : List Sec) (i : Nat) : Prop :=
  ∃ x, l[i]? = some x ∧ ((i < run.length ∧ run[i]? ≠ some x) ∨ x ∈ l.take i
    ∨ ∃ y, 1 ≤ i ∧ l[i - 1]? = some y
      ∧ (((m.sections.nth y).succ0 ≠ some x.1 ∧ (m.sections.nth y).succ1 ≠ some x.1)
        ∨ ((m.sections.nth y).kind = .fork ∧ (m.sections.nth x).kind = .fork)))

theorem entryFails_iff (m : LayoutMap) (run l : List Sec) (i : Nat) : m.entryFails run l i = true ↔ EntryFails m run l i := by
  unfold LayoutMap.entryFails EntryFails
  cases hx : l[i]? with
  | none => simp
  | some x =>
    cases i with
    | zero => simp
    | succ i =>
      have before : ∃ y, l[i]? = some y := by
        have : i + 1 < l.length := (List.getElem?_eq_some_iff.mp hx).1
        exact ⟨l[i], List.getElem?_eq_getElem (by omega)⟩
      obtain ⟨y, hy⟩ := before
      simp [hy, LayoutMap.isSuccessor, LayoutMap.isFork, or_assoc]

theorem noBrakeAtEnd_iff (m : LayoutMap) (l : List Sec) :
    m.noBrakeAtEnd l = true ↔ ∃ x, l.getLast? = some x ∧ (m.sections.nth x).brake = none := by
  unfold LayoutMap.noBrakeAtEnd
  cases l.getLast? <;> simp

/-- The first entry that fails is the index of the failure. -/
theorem routeFails_entry {m : LayoutMap} {run l : List Sec} {i : Nat} (h : EntryFails m run l i)
    (first : ∀ j, j < i → ¬ EntryFails m run l j) : m.routeFails run l = some i := by
  have found : (List.range l.length).find? (fun i => m.entryFails run l i) = some i := by
    rw [List.find?_range_eq_some]
    refine ⟨(entryFails_iff m run l i).mpr h, ?_, fun j hj => ?_⟩
    · obtain ⟨x, at_i, -⟩ := h
      exact List.mem_range.mpr (List.getElem?_eq_some_iff.mp at_i).1
    · have passes := first j hj
      rw [← entryFails_iff, Bool.not_eq_true] at passes
      simp [passes]
  rw [LayoutMap.routeFails, found]

/-- Past the entries, the last one's brake detector and the length of the run decide. -/
theorem routeFails_end {m : LayoutMap} {run l : List Sec} (h : ∀ i, ¬ EntryFails m run l i) : m.routeFails run l =
    if m.noBrakeAtEnd l then some (l.length - 1) else if l.length ≤ run.length then some run.length else none := by
  have none_fails : (List.range l.length).find? (fun i => m.entryFails run l i) = none := by
    rw [List.find?_eq_none]
    intro i _
    rw [entryFails_iff]
    exact h i
  rw [LayoutMap.routeFails, none_fails]

/-! ### The checks of SET_ROUTE (R74) -/

namespace State

variable (s : State) (p : Port) (c : Conv)

theorem routable_iff (st : ConvoyState) : st.routable = true ↔ st ∈ [ConvoyState.standing, .waiting, .arrived] := by
  cases st <;> decide

theorem routeRequest_owner {rest : List Byte} (h : s.owns p c = false) :
    s.routeRequest p c rest = s.refusal .notOwner := by simp [routeRequest, h]

theorem routeRequest_none {rest : List Byte} (h : s.owns p c = true) (hr : routeArg rest = none) :
    s.routeRequest p c rest = s.refusal .badArg := by simp [routeRequest, h, hr]

theorem routeRequest_some {rest : List Byte} {l : List Sec} (h : s.owns p c = true) (hr : routeArg rest = some l) :
    s.routeRequest p c rest = s.routeWith c l := by simp [routeRequest, h, hr]

variable {l : List Sec}

theorem routeWith_state (h : (s.convoy c).state ∉ [ConvoyState.standing, .waiting, .arrived]) :
    s.routeWith c l = s.refusal .badState := by
  rw [← routable_iff, Bool.not_eq_true] at h
  simp [routeWith, h]

theorem routeWith_invalid (h : (s.convoy c).state ∈ [ConvoyState.standing, .waiting, .arrived]) {i : Nat}
    (hi : s.map.routeFails (s.occupiedRun c) l = some i) : s.routeWith c l = s.refusal .routeInvalid [byte i] := by
  rw [← routable_iff] at h
  simp [routeWith, h, hi]

/-- Past the test of the list the length of its last section decides. -/
theorem routeWith_valid (h : (s.convoy c).state ∈ [ConvoyState.standing, .waiting, .arrived])
    (hi : s.map.routeFails (s.occupiedRun c) l = none) {x : Sec} (hx : l.getLast? = some x) : s.routeWith c l =
      if s.secLength x < s.lengthOf c (s.members c) then s.tooShort (s.lengthOf c (s.members c)) (s.secLength x)
      else (s.setRoute c l).convoyOk c := by
  rw [← routable_iff] at h
  simp [routeWith, h, hi, hx]

/-! ### The frames of an acceptance (R75) -/

theorem requestIfWaiting_frame : KeepsAllBut s (s.requestIfWaiting c) reach := .ite (s.request_frame c) (.refl _ _)

theorem leaveArrived_frame : KeepsAllBut s (s.leaveArrived c) [.convoyTable] := .ite (s.setState_frame c _) (.refl _ _)

theorem installRoute_frame (new : List Sec) (rs : List Resource) (n : Nat) :
    KeepsAllBut s (s.installRoute c new rs n) [.interlock, .tracker, .dispatcher] :=
  ((((s.releaseList_frame c rs).mono.trans (modRoad_frame _ c _).mono).trans (modTrack_frame _ c _).mono).trans
    (updateAllBranches_frame _ c).mono).trans (evalWatch_frame _ c).mono

theorem finishRoute_frame (rs : List Resource) : KeepsAllBut s (s.finishRoute c rs) reach := by
  unfold finishRoute
  split
  · exact ((modQueue_frame _ _ _).mono.trans (leaveArrived_frame _ c).mono).trans (scanAll_frame _ _)
  · exact (((s.withdraw_frame c).mono.trans (leaveArrived_frame _ c).mono).trans (scanAll_frame _ _)).trans
      (requestIfWaiting_frame _ c)

theorem setRoute_frame : KeepsAllBut s (s.setRoute c l) reach := by
  unfold setRoute
  exact (s.installRoute_frame c l _ _).mono.trans (finishRoute_frame _ c _)

end State

/-- Settles O27: the test of the list entry by entry, then the checks in their order. -/
theorem setRouteChecksTheRoute : Obligations.SetRouteChecksTheRoute := by
  refine ⟨fun m run l => ⟨fun i => routeFails_entry, fun h x hx brake => ?_, fun h brake => ?_⟩, ?_⟩
  · rw [routeFails_end h, if_pos ((noBrakeAtEnd_iff m l).mpr ⟨x, hx, brake⟩)]
  · have braked : ¬ m.noBrakeAtEnd l = true := fun k => by
      obtain ⟨x, hx, none⟩ := (noBrakeAtEnd_iff m l).mp k
      exact brake x hx none
    rw [routeFails_end h, if_neg braked]
  intro s p tag b rest c hs hn
  dsimp only
  let u := s.sees p (s.lastAfter p b c)
  have reaches (ho : s.owns p c = true) := s.serve_convoy { code := 0x20 } tag rest
    (fun s c rest => s.routeRequest p c rest) hs hn rfl (s.notOwner_of_owns ho)
  have refused (ho : s.owns p c = true) (code : ReplyCode) (detail : List Byte)
      (h : u.routeRequest p c rest = u.refusal code detail) :
      exec (.setRoute p tag (b :: rest)) s = .next (s.replied p (s.lastAfter p b c) 0xA0 tag code detail) := by
    refine congrArg Host.Outcome.next ((reaches ho).trans ?_)
    rw [h]
    exact s.sees_refused p _ _ tag code detail hs.1 rfl
  refine ⟨fun ho => ?_, fun ho => ⟨fun hr => ?_, fun l x hr hx => ⟨fun state => ?_, fun state => ⟨fun i hi => ?_,
    fun hi => ⟨fun short => ?_, fun long => ?_⟩⟩⟩⟩⟩
  · refine congrArg Host.Outcome.next ?_
    by_cases may : s.notOwner p c .ownersOnly = true
    · exact s.serve_notOwner _ tag rest _ hs hn rfl rfl may
    · rw [s.serve_convoy _ tag rest _ hs hn rfl (by simpa using may),
        State.routeRequest_owner (s.sees p (s.lastAfter p b c)) p c ho]
      exact s.sees_refused p _ _ tag _ _ hs.1 rfl
  · exact refused ho _ _ (State.routeRequest_none u p c ho hr)
  · exact refused ho _ _ ((State.routeRequest_some u p c ho hr).trans (State.routeWith_state u c state))
  · exact refused ho _ _ ((State.routeRequest_some u p c ho hr).trans (State.routeWith_invalid u c state hi))
  · refine refused ho _ _ ((State.routeRequest_some u p c ho hr).trans ((State.routeWith_valid u c state hi hx).trans ?_))
    exact if_pos short
  · have accepted := (State.routeRequest_some u p c ho hr).trans
      ((State.routeWith_valid u c state hi hx).trans (if_neg (Nat.not_lt.mpr long)))
    obtain ⟨-, -, t, event, -, answers⟩ := s.sees_convoyOk p (s.lastAfter p b c) { code := 0x20 } tag c
      (State.setRoute_frame u c (l := l) .consolePorts (by decide)) rfl
    refine ⟨t, congrArg Host.Outcome.next ((reaches ho).trans ?_), answers⟩
    rw [accepted]
    exact event

end Sys2Proof.Machine
end

section
/-!
SUPPORT. What a frame says of each accessor; and the rules of a grant (R80, R81): who is eligible, what becomes held.
-/

namespace Sys2Proof.Machine

open Sys2Proof

set_option Elab.async false

/-! ### What a frame leaves of each accessor -/

section
variable {s t : State} {bs : List Block} (h : KeepsAllBut s t bs)
include h

theorem KeepsAllBut.sil (hb : Block.interlock ∉ bs := by decide) : t.sil = s.sil := h _ hb
theorem KeepsAllBut.cvt (hb : Block.convoyTable ∉ bs := by decide) : t.cvt = s.cvt := h _ hb
theorem KeepsAllBut.tracks (hb : Block.tracker ∉ bs := by decide) : t.tracks = s.tracks := h _ hb
theorem KeepsAllBut.hwg (hb : Block.governor ∉ bs := by decide) : t.hwg = s.hwg := h _ hb
theorem KeepsAllBut.hls (hb : Block.haltSupervisor ∉ bs := by decide) : t.hls = s.hls := h _ hb
theorem KeepsAllBut.ports (hb : Block.consolePorts ∉ bs := by decide) : t.ports = s.ports := h _ hb

theorem KeepsAllBut.map (hb : Block.mapUnit ∉ bs := by decide) : t.map = s.map := congrArg MapUnit.map (h _ hb)

theorem KeepsAllBut.sec (x : Sec) (hb : Block.interlock ∉ bs := by decide) : t.sec x = s.sec x :=
  congrArg (fun k => Tab.nth (Interlock.sections k) x) (h _ hb)

theorem KeepsAllBut.grp (g : Grp) (hb : Block.interlock ∉ bs := by decide) : t.grp g = s.grp g :=
  congrArg (fun k => Tab.nth (Interlock.groups k) g) (h _ hb)

theorem KeepsAllBut.road (c : Conv) (hb : Block.interlock ∉ bs := by decide) : t.road c = s.road c :=
  congrArg (fun k => Tab.nth (Interlock.roads k) c) (h _ hb)

theorem KeepsAllBut.queue (r : Resource) (hb : Block.interlock ∉ bs := by decide) : t.queue r = s.queue r := by
  cases r with
  | sec x => exact congrArg Section.queue (h.sec x hb)
  | grp g => exact congrArg Group.queue (h.grp g hb)

theorem KeepsAllBut.holds (c : Conv) (x : Sec) (hb : Block.interlock ∉ bs := by decide) : t.holds c x = s.holds c x :=
  State.holds_congr (congrArg Section.dyn (h.sec x hb)) c

theorem KeepsAllBut.secHolder (x : Sec) (hb : Block.interlock ∉ bs := by decide) : t.secHolder x = s.secHolder x :=
  State.secHolder_congr (congrArg Section.dyn (h.sec x hb))

theorem KeepsAllBut.convoy (c : Conv) (hb : Block.convoyTable ∉ bs := by decide) : t.convoy c = s.convoy c :=
  congrArg (fun k => Tab.nth (ConvoyTable.convoys k) c) (h _ hb)

theorem KeepsAllBut.members (c : Conv) (hb : Block.convoyTable ∉ bs := by decide) : t.members c = s.members c :=
  congrArg Convoy.members (h.convoy c hb)

theorem KeepsAllBut.track (c : Conv) (hb : Block.tracker ∉ bs := by decide) : t.track c = s.track c :=
  congrArg (fun k => Tab.nth k c) (h _ hb)

theorem KeepsAllBut.speed (a : Addr) (hb : Block.governor ∉ bs := by decide) : t.speed a = s.speed a :=
  congrArg (fun k => Tab.nth (Governor.speeds k) a) (h _ hb)

theorem KeepsAllBut.radio (a : Addr) (hb : Block.dispatcher ∉ bs := by decide) : t.radio a = s.radio a :=
  congrArg (fun k => Tab.nth (Dispatcher.trucks k) a) (h _ hb)

end

namespace State

variable (s : State)

/-! ### Eligible entries (R80 to R82) -/

theorem eligible_sec (x : Sec) (e : Entry) : s.eligible (.sec x) e = true ↔
    (s.sec x).dyn = .free ∨ (s.sec x).dyn = .parked ∧ e.index + 1 = (s.road e.conv).route.length := by
  cases h : (s.sec x).dyn <;> simp [eligible, endsHere, h]

theorem groupFree_iff (g : Grp) : s.groupFree g = true ↔
    ∀ n ∈ s.map.groupList g, ∃ x : Sec, x.1 = n ∧ (s.sec x).dyn = .free := by
  unfold groupFree
  rw [List.all_eq_true]
  refine forall₂_congr fun n _ => ?_
  cases hx : secOf n with
  | none =>
    simp only [Bool.false_eq_true, false_iff, not_exists, not_and]
    intro x hn
    simp [(secOf_eq_some n x).mpr hn.symm] at hx
  | some x =>
    rw [secOf_eq_some] at hx
    simp only [beq_iff_eq]
    exact ⟨fun free => ⟨x, hx.symm, free⟩, fun ⟨y, hy, free⟩ => by rwa [Fin.ext (hx.symm.trans hy.symm)]⟩

theorem eligible_grp (g : Grp) (e : Entry) : s.eligible (.grp g) e = true ↔
    (s.grp g).holder = none ∧ s.map.groupList g ≠ []
      ∧ (∀ n ∈ s.map.groupList g, ∃ x : Sec, x.1 = n ∧ (s.sec x).dyn = .free) ∧ e.sec.1 ∈ s.map.groupList g := by
  rw [← groupFree_iff]
  simp [eligible, and_assoc]

/-- The choice of a scan is the first eligible entry. -/
theorem scanChoice_eq_some (r : Resource) (e : Entry) : s.scanChoice r = some e ↔ s.firstEligible r e := by
  unfold scanChoice firstEligible
  split
  · rename_i halted
    simp [halted]
  · rename_i running
    simp only [List.find?_eq_some_iff_append, Bool.not_eq_true'] at *
    exact ⟨fun ⟨fits, front, back, queue, before⟩ => ⟨by simpa using running, front, back, queue, fits, before⟩,
      fun ⟨_, front, back, queue, fits, before⟩ => ⟨fits, front, back, queue, before⟩⟩

theorem scanChoice_eq_none (r : Resource) : s.scanChoice r = none ↔ ∀ e, ¬ s.firstEligible r e := by
  rw [Option.eq_none_iff_forall_ne_some]
  exact forall_congr' fun e => not_congr (s.scanChoice_eq_some r e)

/-- A listed section is one that the group's list numbers (R11). -/
theorem mem_listed (m : LayoutMap) (g : Grp) (x : Sec) : x ∈ m.listed g ↔ x.1 ∈ m.groupList g := by
  simp only [LayoutMap.listed, List.mem_filterMap, secOf_eq_some]
  exact ⟨fun ⟨n, hn, hx⟩ => hx ▸ hn, fun h => ⟨x.1, h, rfl⟩⟩

/-! ### What becomes held (R81) -/

/-- Section `x` belongs to resource `r`: it is that section, or on that group's list. -/
def Within (m : LayoutMap) (r : Resource) (x : Sec) : Prop := r = .sec x ∨ ∃ g, r = .grp g ∧ x ∈ m.listed g

open Classical in
theorem sec_holdSecs (c : Conv) (l : List Sec) (x : Sec) : (s.forEach l fun s y => s.holdSec c y).sec x =
    if x ∈ l then { s.sec x with dyn := .held c } else s.sec x := by
  induction l generalizing s with
  | nil => simp
  | cons y l ih =>
    rw [forEach_cons, ih]
    by_cases hy : x = y
    · subst hy
      simp [holdSec]
    · simp [holdSec, hy]

open Classical in
theorem sec_holdResource (c : Conv) (r : Resource) (x : Sec) : (s.holdResource c r).sec x =
    if Within s.map r x then { s.sec x with dyn := .held c } else s.sec x := by
  cases r with
  | sec y =>
    by_cases hy : x = y
    · subst hy
      simp [holdResource, holdSec, Within]
    · simp [holdResource, holdSec, Within, hy, Ne.symm hy]
  | grp g =>
    have within : Within s.map (.grp g) x ↔ x ∈ s.map.listed g := by simp [Within]
    simp only [holdResource, sec_holdSecs, sec_modGrp, within]

theorem grp_holdSecs (c : Conv) (l : List Sec) (g : Grp) : (s.forEach l fun s y => s.holdSec c y).grp g = s.grp g :=
  forEach_keeps (fun t => t.grp g) (fun t y => t.holdSec c y) (fun _ _ => rfl) s l

theorem grp_holdResource (c : Conv) (r : Resource) (g : Grp) : (s.holdResource c r).grp g =
    if r = .grp g then { s.grp g with holder := some c } else s.grp g := by
  cases r with
  | sec y => simp [holdResource, holdSec]
  | grp k =>
    rw [holdResource, grp_holdSecs, grp_modGrp]
    by_cases hk : g = k
    · simp [hk]
    · simp [hk, Ne.symm hk]

theorem roads_holdResource (c : Conv) (r : Resource) : (s.holdResource c r).sil.roads = s.sil.roads := by
  cases r with
  | sec y => rfl
  | grp k => exact forEach_keeps (fun t => t.sil.roads) (fun t y => t.holdSec c y) (fun _ _ => rfl) _ _

theorem road_holdResource (c : Conv) (r : Resource) (d : Conv) : (s.holdResource c r).road d = s.road d :=
  congrArg (fun k => Tab.nth k d) (s.roads_holdResource c r)

theorem queue_holdResource (c : Conv) (r y : Resource) : (s.holdResource c r).queue y = s.queue y := by
  cases y with
  | sec x =>
    rw [queue_sec, sec_holdResource]
    split <;> rfl
  | grp g =>
    rw [queue_grp, grp_holdResource]
    split <;> rfl

/-- A resource that becomes held is held whole. -/
theorem heldWhole_holdResource (c : Conv) (r : Resource) : (s.holdResource c r).heldWhole c r := by
  have map : (s.holdResource c r).map = s.map := (s.holdResource_frame c r).map
  have sec {x : Sec} (h : Within s.map r x) : (s.holdResource c r).secHolder x = some c := by
    rw [secHolder_eq_some, sec_holdResource, if_pos h]
  cases r with
  | sec x => exact sec (.inl rfl)
  | grp g => exact ⟨by simp [grp_holdResource], fun x hx => sec (.inr ⟨g, rfl, map ▸ hx⟩)⟩

/-- What is held whole stays so while holders keep what they hold. -/
theorem heldWhole_mono {s t : State} {c : Conv} {r : Resource} (hm : t.map = s.map)
    (hx : ∀ x, s.secHolder x = some c → t.secHolder x = some c)
    (hg : ∀ g, (s.grp g).holder = some c → (t.grp g).holder = some c) (h : s.heldWhole c r) : t.heldWhole c r := by
  cases r with
  | sec x => exact hx x h
  | grp g =>
    obtain ⟨holder, sections⟩ := h
    exact ⟨hg g holder, fun x hl => hx x (sections x (hm ▸ hl))⟩

/-- What is grantable is held by nobody. -/
theorem eligible_unheld {r : Resource} {e : Entry} (h : s.eligible r e = true) :
    (∀ x, Within s.map r x → s.secHolder x = none) ∧ ∀ g, r = .grp g → (s.grp g).holder = none := by
  have unheld {x : Sec} (h : (s.sec x).dyn = .free ∨ (s.sec x).dyn = .parked) : s.secHolder x = none := by
    rcases h with h | h <;> simp [secHolder, h]
  cases r with
  | sec y =>
    rw [eligible_sec] at h
    refine ⟨fun x hx => ?_, nofun⟩
    obtain rfl : y = x := by simpa [Within] using hx
    exact unheld (h.imp id And.left)
  | grp g =>
    rw [eligible_grp] at h
    obtain ⟨holder, -, free, -⟩ := h
    refine ⟨fun x hx => ?_, fun k hk => ?_⟩
    · have listed : x ∈ s.map.listed g := by simpa [Within] using hx
      obtain ⟨y, hy, free⟩ := free x.1 ((mem_listed _ g x).mp listed)
      obtain rfl : y = x := Fin.ext hy
      exact unheld (.inl free)
    · obtain rfl : g = k := by simpa using hk
      exact holder

/-- What is grantable has a section. -/
theorem eligible_within {r : Resource} {e : Entry} (h : s.eligible r e = true) : ∃ x, Within s.map r x := by
  cases r with
  | sec x => exact ⟨x, .inl rfl⟩
  | grp g =>
    rw [eligible_grp] at h
    exact ⟨e.sec, .inr ⟨g, rfl, (mem_listed _ g _).mpr h.2.2.2⟩⟩

end State

end Sys2Proof.Machine
end

section
/-!
SUPPORT. The leader's target (R122, R123) and the run states of the follower units (R107 to R109), said once for each
operation; and what the units' operations leave alone.
-/

namespace Sys2Proof.Machine

open Sys2Proof

set_option Elab.async false

namespace State

/-! ### What a target reads -/

section
variable {s t : State} {c : Conv} (hm : t.map = s.map) (hr : t.road c = s.road c)
  (hj : (t.track c).head = (s.track c).head) (hx : ∀ x, t.holds c x = s.holds c x)
include hm hr hj hx

theorem nextEffective_congr : t.nextEffective c = s.nextEffective c := by
  simp only [nextEffective, nextSec?, routeAt, hm, hr, hj, hx]

theorem leaderTarget_congr (hh : t.hls = s.hls) (hp : (t.convoy c).params = (s.convoy c).params)
    (hb : (t.track c).brakeSeen = (s.track c).brakeSeen) (st : ConvoyState) : t.leaderTarget c st = s.leaderTarget c st := by
  have head : t.headSec? c = s.headSec? c := by simp only [headSec?, routeAt, hr, hj]
  have brake (x : Sec) : t.hasBrake x = s.hasBrake x :=
    congrArg (fun m => (Tab.nth (LayoutMap.sections m) x).brake.isSome) hm
  have cap (x : Sec) : t.vcap c x = s.vcap c x := by simp only [vcap, hp, hm, hh]
  have approach : t.approachCap c = s.approachCap c := by
    unfold approachCap
    rw [head, hm]
  have last : t.headIsLast c = s.headIsLast c := by rw [headIsLast, headIsLast, hj, hr]
  unfold leaderTarget
  rw [head]
  cases s.headSec? c with
  | none => rfl
  | some x => simp only [hh, last, hb, brake, cap, approach, nextEffective_congr hm hr hj hx]

end

variable (s : State)

/-! ### A target applied (R123) -/

theorem applyTarget_set (a : Addr) (n : Nat) : ((s.applyTarget a n).speed a).set = n := by
  unfold applyTarget
  split
  · simp
  · rename_i h
    obtain rfl : n = 0 := by omega
    split
    · rw [(s.hardStop_spec a).1.1]
    · rename_i stands
      omega

theorem applyTarget_other {a b : Addr} (h : b ≠ a) (n : Nat) :
    (s.applyTarget a n).speed b = s.speed b ∧ (s.applyTarget a n).radio b = s.radio b := by
  unfold applyTarget
  split
  · simp [h]
  · split
    · exact (s.hardStop_spec a).2 b h
    · exact ⟨rfl, rfl⟩

theorem hardStop_branch (a b : Addr) : ((s.hardStop a).radio b).branch = (s.radio b).branch := by
  by_cases h : b = a
  · subst h
    rw [(s.hardStop_spec b).1.2]
    rfl
  · rw [((s.hardStop_spec a).2 b h).2]

theorem applyTarget_branch (a b : Addr) (n : Nat) : ((s.applyTarget a n).radio b).branch = (s.radio b).branch := by
  unfold applyTarget
  split
  · rfl
  · split
    · exact s.hardStop_branch a b
    · rfl

theorem retarget_some {c : Conv} {a : Addr} (h : s.leader? c = some a) (st : ConvoyState) :
    s.retarget c st = s.applyTarget a (s.leaderTarget c st) := by simp only [retarget, h]

theorem retarget_branch (c : Conv) (st : ConvoyState) (b : Addr) :
    ((s.retarget c st).radio b).branch = (s.radio b).branch := by
  unfold retarget
  split
  · exact s.applyTarget_branch _ b _
  · rfl

/-- A target reaches the leader alone. -/
theorem retarget_other {c : Conv} {b : Addr} (h : s.leader? c ≠ some b) (st : ConvoyState) :
    (s.retarget c st).speed b = s.speed b ∧ (s.retarget c st).radio b = s.radio b := by
  unfold retarget
  split
  · rename_i a leader
    exact s.applyTarget_other (fun e => h (by rw [leader, e])) _
  · exact ⟨rfl, rfl⟩

theorem recomputeTarget_formed {c : Conv} (h : s.formed c = true) :
    s.recomputeTarget c = s.retarget c (s.convoy c).state := if_pos h

theorem leader_mem {c : Conv} {a : Addr} (h : s.leader? c = some a) : a ∈ truckAddrs (s.members c) :=
  List.mem_of_mem_head? h

/-! ### Run states of the units (R107 to R109) -/

theorem unitState_setUnit (c : Conv) (u w : Nat) (r : RunState) : (s.setUnit c u r).unitState? c w =
    if w = u then (s.unitState? c u).map fun _ => r else s.unitState? c w := by
  unfold setUnit unitState?
  by_cases hu : u = 0
  · by_cases hw : w = 0 <;> simp [hu, hw]
  · by_cases hw : w = u
    · subst hw
      simp only [if_neg hu, track_modTrack_self, if_pos]
      rw [List.getElem?_set_self']
      cases (s.track c).units[w - 1]? <;> rfl
    · by_cases hz : w = 0
      · simp [hz, Ne.symm hu]
      · have places : u - 1 ≠ w - 1 := by omega
        simp [hu, hw, hz, places]

/-- A set run state changes nothing of the tracking but the units. -/
theorem track_setUnit (c d : Conv) (u : Nat) (r : RunState) :
    (s.setUnit c u r).track d = { s.track d with units := ((s.setUnit c u r).track d).units } := by
  unfold setUnit
  split
  · rfl
  · by_cases hd : d = c
    · subst hd
      simp
    · simp [hd]

/-- Two states agree in all that the run states of convoy `c` rest on but the run states. -/
structure SameUnits (s t : State) (c : Conv) : Prop where
  hls : t.hls = s.hls
  map : t.map = s.map
  road : t.road c = s.road c
  convoy : (t.convoy c) = s.convoy c
  track : t.track c = { s.track c with units := (t.track c).units }

theorem SameUnits.refl (c : Conv) : SameUnits s s c := ⟨rfl, rfl, rfl, rfl, rfl⟩

theorem SameUnits.trans {s t u : State} {c : Conv} (h : SameUnits s t c) (k : SameUnits t u c) : SameUnits s u c :=
  ⟨k.hls.trans h.hls, k.map.trans h.map, k.road.trans h.road, k.convoy.trans h.convoy, by rw [k.track, h.track]⟩

section
variable {s} {t : State} {c : Conv} (h : SameUnits s t c)
include h

theorem SameUnits.members : t.members c = s.members c := congrArg Convoy.members h.convoy

theorem SameUnits.unitsFor : t.unitsFor c = s.unitsFor c := congrArg unitsOf h.members

theorem SameUnits.position (k : Nat) : (t.track c).position k = (s.track c).position k := by rw [h.track]; rfl

theorem SameUnits.head : (t.track c).head = (s.track c).head := by rw [h.track]

theorem SameUnits.unitTruck (u : Nat) : t.unitTruck? c u = s.unitTruck? c u := by
  rw [unitTruck?, unitTruck?, h.members]

theorem SameUnits.lastAtHead (u : Nat) : t.lastAtHead c u = s.lastAtHead c u := by
  simp only [State.lastAtHead, h.unitsFor, h.position, h.head]

theorem SameUnits.approachCap : t.approachCap c = s.approachCap c := by
  simp only [State.approachCap, headSec?, routeAt, h.road, h.head, h.map]

theorem SameUnits.unitSec (u : Nat) : t.unitSec? c u = s.unitSec? c u := by
  simp only [unitSec?, routeAt, h.unitsFor, h.position, h.road]

theorem SameUnits.vcap (x : Sec) : t.vcap c x = s.vcap c x := by simp only [State.vcap, h.convoy, h.map, h.hls]

theorem SameUnits.runInSpeed (u : Nat) : t.runInSpeed c u = s.runInSpeed c u := by
  simp only [State.runInSpeed, h.hls, h.approachCap, h.unitSec, h.vcap]

theorem SameUnits.unitReset {u : Nat} (hu : t.unitState? c u = s.unitState? c u) (st : ConvoyState) :
    t.unitReset c st u = s.unitReset c st u := by
  simp only [State.unitReset, h.lastAtHead, hu]

end

theorem setUnit_same (c : Conv) (u : Nat) (r : RunState) : SameUnits s (s.setUnit c u r) c where
  hls := (s.setUnit_frame c u r).hls
  map := (s.setUnit_frame c u r).map
  road := (s.setUnit_frame c u r).road c
  convoy := (s.setUnit_frame c u r).convoy c
  track := s.track_setUnit c c u r

theorem setUnit_track_other {c d : Conv} (h : d ≠ c) (u : Nat) (r : RunState) : (s.setUnit c u r).track d = s.track d := by
  unfold setUnit
  split
  · rfl
  · simp [h]

/-- Step 3 of R109 sets the run state of one unit. -/
theorem resetUnit_eq {c : Conv} (h : (s.convoy c).state = .rolling ∨ (s.convoy c).state.runsIn = true) (u : Nat) :
    ∃ r, s.resetUnit c u = s.setUnit c u r ∧ (s.unitState? c u).map (fun _ => r) = s.unitReset c (s.convoy c).state u
      ∨ s.resetUnit c u = s ∧ s.unitState? c u = s.unitReset c (s.convoy c).state u := by
  have waits (hs : (s.convoy c).state = .waiting ∨ (s.convoy c).state = .arriving) (r : RunState)
      (hu : s.unitState? c u = some r) : s.resetUnit c u =
        if s.lastAtHead c u then s.setUnit c u .down else if r = .down then s.setUnit c u .startPending else s := by
    rcases hs with hs | hs <;> simp only [resetUnit, hs, hu]
  cases hu : s.unitState? c u with
  | none =>
    refine ⟨.down, .inr ⟨?_, by simp [unitReset, hu]⟩⟩
    unfold resetUnit
    split <;> simp_all
  | some r =>
    by_cases rolling : (s.convoy c).state = .rolling
    · cases r with
      | downPending => exact ⟨.run, .inl ⟨by simp [resetUnit, rolling, hu], by simp [unitReset, rolling, hu]⟩⟩
      | down => exact ⟨.startPending, .inl ⟨by simp [resetUnit, rolling, hu], by simp [unitReset, rolling, hu]⟩⟩
      | run => exact ⟨.run, .inr ⟨by simp [resetUnit, rolling, hu], by simp [unitReset, rolling, hu]⟩⟩
      | startPending => exact ⟨.run, .inr ⟨by simp [resetUnit, rolling, hu], by simp [unitReset, rolling, hu]⟩⟩
    · have waiting : (s.convoy c).state = .waiting ∨ (s.convoy c).state = .arriving := by
        have runs := h.resolve_left rolling
        revert runs
        cases (s.convoy c).state <;> simp [ConvoyState.runsIn]
      rw [waits waiting r hu]
      by_cases last : s.lastAtHead c u = true
      · exact ⟨.down, .inl ⟨by simp [last], by simp [unitReset, rolling, last, hu]⟩⟩
      · by_cases down : r = .down
        · exact ⟨.startPending, .inl ⟨by simp [last, down], by simp [unitReset, rolling, last, hu, down]⟩⟩
        · exact ⟨.run, .inr ⟨by simp [last, down], by simp [unitReset, rolling, last, hu, down]⟩⟩

end State

end Sys2Proof.Machine
end

section
/-!
SUPPORT. The two passes over the follower units in the restart procedure (R109 steps 3 and 4), and the procedure itself.
-/

namespace Sys2Proof.Machine

open Sys2Proof

set_option Elab.async false

/-! ### Units and members (R51) -/

theorem unitsFrom_trucks (i : Nat) (ms : List Member) : (unitsFrom i ms).map Unit.truck = truckAddrs ms := by
  induction ms generalizing i with
  | nil => rfl
  | cons m ms ih =>
    cases m with
    | truck a len => exact congrArg (a :: ·) (ih (i + 1))
    | trailer len => exact ih (i + 1)

theorem unitsOf_length (ms : List Member) : (unitsOf ms).length = unitCount ms := by
  rw [unitCount, ← unitsFrom_trucks 0 ms, List.length_map]
  rfl

namespace State

variable (s : State)

theorem mem_followers (c : Conv) (u : Nat) : u ∈ s.followers c ↔ 1 ≤ u ∧ u < unitCount (s.members c) := by
  rw [followers, List.mem_range'_1, unitsFor, unitsOf_length]
  omega

theorem followers_nodup (c : Conv) : (s.followers c).Nodup := List.nodup_range'

/-- With each truck once in its convoy, a truck belongs to one unit. -/
theorem unitTruck_inj {c : Conv} (h : (truckAddrs (s.members c)).Nodup) {u w : Nat} {a : Addr}
    (hu : s.unitTruck? c u = some a) (hw : s.unitTruck? c w = some a) : u = w := by
  obtain ⟨lt, rfl⟩ := List.getElem?_eq_some_iff.mp hu
  obtain ⟨lt', e⟩ := List.getElem?_eq_some_iff.mp hw
  exact (h.getElem_inj_iff.mp e).symm

theorem unitTruck_mem {c : Conv} {u : Nat} {a : Addr} (h : s.unitTruck? c u = some a) : a ∈ truckAddrs (s.members c) :=
  List.mem_of_getElem? h

theorem leader_unitTruck (c : Conv) : s.leader? c = s.unitTruck? c 0 := List.head?_eq_getElem?

/-- The leader is the truck of no follower unit. -/
theorem leader_ne_follower {c : Conv} (h : (truckAddrs (s.members c)).Nodup) {u : Nat} {a : Addr} (hu : 1 ≤ u)
    (ha : s.unitTruck? c u = some a) : s.leader? c ≠ some a := fun leader => by
  rw [leader_unitTruck] at leader
  have := s.unitTruck_inj h leader ha
  omega

/-! ### Step 3: the run states by the resulting state -/

theorem resetUnit_same (c : Conv) (u : Nat) : SameUnits s (s.resetUnit c u) c := by
  have ite (r : RunState) (p : Prop) [Decidable p] {t : State} (h : SameUnits s t c) :
      SameUnits s (if p then s.setUnit c u r else t) c := by
    split
    · exact s.setUnit_same c u r
    · exact h
  unfold resetUnit
  split
  · exact s.setUnit_same c u _
  · exact s.setUnit_same c u _
  · exact ite _ _ (ite _ _ (.refl s c))
  · exact ite _ _ (ite _ _ (.refl s c))
  · exact .refl s c

theorem unitState_resetUnit {c : Conv} (h : (s.convoy c).state = .rolling ∨ (s.convoy c).state.runsIn = true)
    (u w : Nat) : (s.resetUnit c u).unitState? c w =
      if w = u then s.unitReset c (s.convoy c).state u else s.unitState? c w := by
  obtain ⟨r, ⟨eq, reset⟩ | ⟨eq, reset⟩⟩ := s.resetUnit_eq h u
  · rw [eq, unitState_setUnit, reset]
  · rw [eq]
    split
    · rename_i hw
      rw [hw, reset]
    · rfl

/-- After step 3 each unit of the list has the run state of R109, the others the one they had. -/
theorem resetUnits_spec {c : Conv} (h : (s.convoy c).state = .rolling ∨ (s.convoy c).state.runsIn = true)
    (l : List Nat) (hl : l.Nodup) : SameUnits s (s.forEach l fun s u => s.resetUnit c u) c
      ∧ ∀ w, (s.forEach l fun s u => s.resetUnit c u).unitState? c w =
        if w ∈ l then s.unitReset c (s.convoy c).state w else s.unitState? c w := by
  induction l generalizing s with
  | nil => exact ⟨.refl s c, fun w => by simp⟩
  | cons u l ih =>
    obtain ⟨fresh, nodup⟩ := List.nodup_cons.mp hl
    have same := s.resetUnit_same c u
    have state : ((s.resetUnit c u).convoy c).state = (s.convoy c).state := by rw [same.convoy]
    obtain ⟨later, states⟩ := ih (s.resetUnit c u) (by rwa [state]) nodup
    refine ⟨same.trans later, fun w => ?_⟩
    rw [forEach_cons, states, state]
    by_cases hw : w = u
    · subst hw
      simp [fresh, s.unitState_resetUnit h]
    · have kept : (s.resetUnit c u).unitState? c w = s.unitState? c w := by rw [s.unitState_resetUnit h, if_neg hw]
      simp [hw, kept, same.unitReset kept]

/-! ### Step 4: units behind a DOWN unit start -/

/-- Unit `u` starts behind a unit that is DOWN (R109 step 4). -/
def StartsBehind (c : Conv) (u : Nat) : Prop := s.unitState? c u = some .startPending ∧ s.aheadDown c u = true

/-- The truck of unit `u` takes a set speed. -/
def spedUnit (c : Conv) (u v : Nat) : State :=
  match s.unitTruck? c u with
  | some a => s.modSpeed a fun sp => { sp with set := v }
  | none => s

theorem spedUnit_track (c : Conv) (u v : Nat) (d : Conv) : (s.spedUnit c u v).track d = s.track d := by
  unfold spedUnit
  split <;> rfl

theorem spedUnit_convoy (c : Conv) (u v : Nat) (d : Conv) : (s.spedUnit c u v).convoy d = s.convoy d := by
  unfold spedUnit
  split <;> rfl

theorem spedUnit_speed (c : Conv) (u v : Nat) (b : Addr) : (s.spedUnit c u v).speed b =
    if s.unitTruck? c u = some b then ⟨v, (s.speed b).cmd⟩ else s.speed b := by
  unfold spedUnit
  split
  · rename_i a ha
    by_cases hb : b = a
    · simp [ha, hb]
    · simp [ha, hb, Ne.symm hb]
  · rename_i ha
    simp [ha]

theorem restartUnit_eq (c : Conv) (u : Nat) : s.restartUnit c u =
    let v := s.restartSpeed c u (s.restartReference c u)
    if 0 < v then (s.spedUnit c u v).setUnit c u ((s.spedUnit c u v).convoy c).state.restarted else s.spedUnit c u v := rfl

theorem restartUnit_behind {c : Conv} {u : Nat} (h : s.aheadDown c u = true) : s.restartUnit c u =
    if 0 < s.runInSpeed c u then (s.spedUnit c u (s.runInSpeed c u)).setUnit c u .downPending
    else s.spedUnit c u (s.runInSpeed c u) := by
  have runs : (s.convoy c).state.runsIn = true := by
    simp only [aheadDown, Bool.and_eq_true] at h
    exact h.1
  have speed : s.restartSpeed c u (s.restartReference c u) = s.runInSpeed c u := by
    simp only [restartSpeed, restartReference, h, if_true, runInSpeed]
    cases s.unitSec? c u <;> simp
  simp only [restartUnit_eq, speed, spedUnit_convoy, ConvoyState.restarted, runs, if_true]

theorem runInUnit_stays {c : Conv} {u : Nat} (h : ¬ s.StartsBehind c u) : s.runInUnit c u = s := by
  unfold runInUnit
  exact if_neg (by simpa [StartsBehind] using h)

theorem runInUnit_starts {c : Conv} {u : Nat} (h : s.StartsBehind c u) : s.runInUnit c u = s.restartUnit c u := by
  unfold runInUnit
  exact if_pos (by simpa [StartsBehind] using h)

theorem restartUnit_same (c : Conv) (u : Nat) : SameUnits s (s.restartUnit c u) c := by
  have frame := s.restartUnit_frame c u
  refine ⟨frame.hls, frame.map, frame.road c, frame.convoy c, ?_⟩
  rw [restartUnit_eq]
  dsimp only
  split
  · rw [track_setUnit, spedUnit_track]
  · rw [spedUnit_track]

theorem runInUnit_same (c : Conv) (u : Nat) : SameUnits s (s.runInUnit c u) c := by
  unfold runInUnit
  split
  · exact s.restartUnit_same c u
  · exact .refl s c

open Classical in
theorem unitState_runInUnit (c : Conv) (u w : Nat) : (s.runInUnit c u).unitState? c w =
    if w = u ∧ s.StartsBehind c u ∧ 0 < s.runInSpeed c u then some .downPending else s.unitState? c w := by
  by_cases h : s.StartsBehind c u
  · obtain ⟨pending, behind⟩ := h
    have sped (w : Nat) : (s.spedUnit c u (s.runInSpeed c u)).unitState? c w = s.unitState? c w := by
      rw [unitState?, unitState?, spedUnit_track]
    rw [s.runInUnit_starts ⟨pending, behind⟩, s.restartUnit_behind behind]
    by_cases runs : 0 < s.runInSpeed c u
    · rw [if_pos runs, unitState_setUnit, sped, sped, pending]
      simp [StartsBehind, pending, behind, runs]
    · rw [if_neg runs, sped, if_neg fun k => runs k.2.2]
  · rw [s.runInUnit_stays h, if_neg fun k => h k.2.1]

open Classical in
theorem speed_runInUnit (c : Conv) (u : Nat) (b : Addr) : (s.runInUnit c u).speed b =
    if s.StartsBehind c u ∧ s.unitTruck? c u = some b then ⟨s.runInSpeed c u, (s.speed b).cmd⟩ else s.speed b := by
  by_cases h : s.StartsBehind c u
  · have speed (t : State) (r : RunState) : (t.setUnit c u r).speed b = t.speed b := (t.setUnit_frame c u r).speed b
    rw [s.runInUnit_starts h, s.restartUnit_behind h.2]
    have sped : (if 0 < s.runInSpeed c u then (s.spedUnit c u (s.runInSpeed c u)).setUnit c u .downPending
        else s.spedUnit c u (s.runInSpeed c u)).speed b = (s.spedUnit c u (s.runInSpeed c u)).speed b := by
      split
      · exact speed _ _
      · rfl
    rw [sped, spedUnit_speed]
    simp [h]
  · rw [s.runInUnit_stays h, if_neg fun k => h k.1]

/-- A unit that starts behind a DOWN unit makes no other unit DOWN, and none that is DOWN start. -/
theorem aheadDown_runInUnit (c : Conv) (u w : Nat) : (s.runInUnit c u).aheadDown c w = s.aheadDown c w := by
  have down (v : Nat) : ((s.runInUnit c u).unitState? c v == some .down) = (s.unitState? c v == some .down) := by
    rw [unitState_runInUnit]
    split
    · rename_i h
      obtain ⟨rfl, ⟨pending, -⟩, -⟩ := h
      simp [pending]
    · rfl
  simp only [aheadDown, (s.runInUnit_same c u).convoy, down]

theorem startsBehind_runInUnit {c : Conv} {u w : Nat} (h : w ≠ u) :
    (s.runInUnit c u).StartsBehind c w ↔ s.StartsBehind c w := by
  simp only [StartsBehind, aheadDown_runInUnit, unitState_runInUnit, h, false_and, if_false]

open Classical in
/-- After step 4 each unit of the list that stood behind a DOWN unit has started. -/
theorem runInUnits_spec (c : Conv) (hc : (truckAddrs (s.members c)).Nodup) (l : List Nat) (hl : l.Nodup) :
    SameUnits s (s.forEach l fun s u => s.runInUnit c u) c
      ∧ (∀ w, (s.forEach l fun s u => s.runInUnit c u).unitState? c w =
        if w ∈ l ∧ s.StartsBehind c w ∧ 0 < s.runInSpeed c w then some .downPending else s.unitState? c w)
      ∧ (∀ w a, s.unitTruck? c w = some a → (s.forEach l fun s u => s.runInUnit c u).speed a =
        if w ∈ l ∧ s.StartsBehind c w then ⟨s.runInSpeed c w, (s.speed a).cmd⟩ else s.speed a)
      ∧ ∀ a, a ∉ truckAddrs (s.members c) → (s.forEach l fun s u => s.runInUnit c u).speed a = s.speed a := by
  induction l generalizing s with
  | nil => exact ⟨.refl s c, fun w => by simp, fun w a _ => by simp, fun _ _ => rfl⟩
  | cons u l ih =>
    obtain ⟨fresh, nodup⟩ := List.nodup_cons.mp hl
    have same := s.runInUnit_same c u
    obtain ⟨later, states, speeds, others⟩ := ih (s.runInUnit c u) (by rwa [same.members]) nodup
    refine ⟨same.trans later, fun w => ?_, fun w a ha => ?_, fun a ha => ?_⟩
    · rw [forEach_cons, states, same.runInSpeed, unitState_runInUnit]
      by_cases hw : w = u
      · subst hw
        simp [fresh]
      · simp only [s.startsBehind_runInUnit hw, List.mem_cons, hw, false_or, false_and, if_false]
    · rw [forEach_cons, speeds w a (by rwa [same.unitTruck]), same.runInSpeed, speed_runInUnit]
      by_cases hw : w = u
      · subst hw
        simp [fresh, ha]
      · have other : s.unitTruck? c u ≠ some a := fun hu => hw (s.unitTruck_inj hc ha hu)
        simp only [s.startsBehind_runInUnit hw, List.mem_cons, hw, false_or, other, and_false, if_false]
    · rw [forEach_cons, others a (by rwa [same.members]), speed_runInUnit, if_neg]
      exact fun ⟨_, ha'⟩ => ha (s.unitTruck_mem ha')

/-! ### The restart procedure (R109) -/

theorem restartUnits_other {c d : Conv} (h : d ≠ c) : (s.restartUnits c).track d = s.track d := by
  have reset (t : State) (u : Nat) : (t.resetUnit c u).track d = t.track d := by
    unfold resetUnit
    split
    · exact t.setUnit_track_other h u _
    · exact t.setUnit_track_other h u _
    · split
      · exact t.setUnit_track_other h u _
      · split
        · exact t.setUnit_track_other h u _
        · rfl
    · split
      · exact t.setUnit_track_other h u _
      · split
        · exact t.setUnit_track_other h u _
        · rfl
    · rfl
  have restart (t : State) (u : Nat) : (t.restartUnit c u).track d = t.track d := by
    rw [restartUnit_eq]
    dsimp only
    split
    · rw [setUnit_track_other _ h, spedUnit_track]
    · rw [spedUnit_track]
  have runIn (t : State) (u : Nat) : (t.runInUnit c u).track d = t.track d := by
    unfold runInUnit
    split
    · exact restart t u
    · rfl
  unfold restartUnits
  exact (forEach_keeps (fun t => t.track d) _ runIn _ _).trans (forEach_keeps (fun t => t.track d) _ reset _ _)

theorem restartUnits_same (c : Conv) : SameUnits s (s.restartUnits c) c := by
  have reset := forEach_inv (fun t => SameUnits s t c) (fun t u => t.resetUnit c u)
    (fun t u h => h.trans (t.resetUnit_same c u)) s (s.followers c) (.refl s c)
  exact forEach_inv (fun t => SameUnits s t c) (fun t u => t.runInUnit c u)
    (fun t u h => h.trans (t.runInUnit_same c u)) _ _ reset

/-- Step 3 touches no speed. -/
theorem resetUnits_speed (c : Conv) (l : List Nat) (a : Addr) :
    (s.forEach l fun s u => s.resetUnit c u).speed a = s.speed a :=
  forEach_keeps (fun t => t.speed a) (fun t u => t.resetUnit c u) (fun t u => (t.resetUnit_frame c u).speed a) s l

/-- Steps 3 and 4 set the units as R109 gives, and touch no other truck. -/
theorem restartUnits_spec {c : Conv} (hc : (truckAddrs (s.members c)).Nodup)
    (h : (s.convoy c).state = .rolling ∨ (s.convoy c).state.runsIn = true) :
    UnitsRestarted s (s.restartUnits c) c (s.convoy c).state
      ∧ ∀ a, (∀ u, 1 ≤ u → u < unitCount (s.members c) → s.unitTruck? c u ≠ some a) →
        (s.restartUnits c).speed a = s.speed a := by
  let t := s.forEach (s.followers c) fun s u => s.resetUnit c u
  obtain ⟨same, states⟩ := s.resetUnits_spec h _ (s.followers_nodup c)
  obtain ⟨-, started, speeds, others⟩ := t.runInUnits_spec c (same.members ▸ hc) (t.followers c) (t.followers_nodup c)
  have whole := s.restartUnits_same c
  have follower (u : Nat) : u ∈ t.followers c ↔ 1 ≤ u ∧ u < unitCount (s.members c) := by
    rw [mem_followers, same.members]
  have runs : (t.convoy c).state.runsIn = true ↔ (s.convoy c).state ≠ .rolling := by
    rw [same.convoy]
    constructor
    · intro k e
      simp [e, ConvoyState.runsIn] at k
    · exact fun k => h.resolve_left k
  have speed (a : Addr) : t.speed a = s.speed a := s.resetUnits_speed c _ a
  refine ⟨fun u one count => ?_, fun a ha => ?_⟩
  · have reset : t.unitState? c u = s.unitReset c (s.convoy c).state u := by
      rw [states, if_pos ((s.mem_followers c u).mpr ⟨one, count⟩)]
    have behind : t.StartsBehind c u ↔ (s.convoy c).state ≠ .rolling
        ∧ s.unitReset c (s.convoy c).state u = some .startPending
        ∧ (u = 1 ∨ s.unitReset c (s.convoy c).state (u - 1) = some .down) := by
      have ahead : u ≠ 1 → t.unitState? c (u - 1) = s.unitReset c (s.convoy c).state (u - 1) := fun hu => by
        rw [states, if_pos ((s.mem_followers c _).mpr ⟨by omega, by omega⟩)]
      rw [StartsBehind, reset, aheadDown, Bool.and_eq_true, runs]
      by_cases hu : u = 1
      · simp [hu, and_comm]
      · simp [hu, ahead hu, and_left_comm]
    have mem := (follower u).mpr ⟨one, count⟩
    refine ⟨?_, fun a ha => ?_⟩
    · have at_u := started u
      rw [reset] at at_u
      simp only [mem, true_and, behind] at at_u
      rw [whole.runInSpeed, ← same.runInSpeed]
      exact at_u
    · have at_a := speeds u a (by rwa [same.unitTruck])
      simp only [mem, true_and, behind, speed] at at_a
      rw [whole.runInSpeed, ← same.runInSpeed]
      exact at_a
  · refine Eq.trans ?_ (speed a)
    by_cases mem : a ∈ truckAddrs (t.members c)
    · obtain ⟨w, lt, hw⟩ := List.getElem_of_mem mem
      have truck : t.unitTruck? c w = some a := List.getElem?_eq_some_iff.mpr ⟨lt, hw⟩
      refine (speeds w a truck).trans (if_neg fun ⟨mem, _⟩ => ?_)
      obtain ⟨one, count⟩ := (follower w).mp mem
      exact ha w one count (by rwa [same.unitTruck] at truck)
    · exact others a mem

end State

end Sys2Proof.Machine
end

section
/-!
SUPPORT. What the report of an effective grant does (R84, R109): the leader's target, the convoy's state, the units.
-/

namespace Sys2Proof.Machine

open Sys2Proof

set_option Elab.async false

theorem KeepsOtherTrucks.refl (s : State) (l : List Addr) : KeepsOtherTrucks s s l := fun _ _ => ⟨rfl, rfl⟩

theorem KeepsOtherTrucks.trans {s t u : State} {l : List Addr} (h : KeepsOtherTrucks s t l)
    (k : KeepsOtherTrucks t u l) : KeepsOtherTrucks s u l := fun a ha =>
  ⟨(k a ha).1.trans (h a ha).1, (k a ha).2.trans (h a ha).2⟩

theorem KeepsOtherConvoys.refl (s : State) (c : Conv) : KeepsOtherConvoys s s c := fun _ _ => ⟨rfl, rfl, rfl⟩

theorem KeepsOtherConvoys.trans {s t u : State} {c : Conv} (h : KeepsOtherConvoys s t c)
    (k : KeepsOtherConvoys t u c) : KeepsOtherConvoys s u c := fun d hd =>
  ⟨(k d hd).1.trans (h d hd).1, (k d hd).2.1.trans (h d hd).2.1, (k d hd).2.2.trans (h d hd).2.2⟩

namespace State

variable (s : State)

/-! ### Notices that are not raised -/

theorem markBranch_raised (a : Addr) : (s.markBranch a).raised = s.raised := by
  unfold markBranch
  split <;> rfl

theorem applyTarget_raised (a : Addr) (n : Nat) : (s.applyTarget a n).raised = s.raised := by
  unfold applyTarget
  split
  · rfl
  · split <;> rfl

theorem retarget_raised (c : Conv) (st : ConvoyState) : (s.retarget c st).raised = s.raised := by
  unfold retarget
  split
  · exact s.applyTarget_raised _ _
  · rfl

theorem recomputeTarget_raised (c : Conv) : (s.recomputeTarget c).raised = s.raised := by
  unfold recomputeTarget
  split
  · exact s.retarget_raised c _
  · rfl

theorem setUnit_raised (c : Conv) (u : Nat) (r : RunState) : (s.setUnit c u r).raised = s.raised := by
  unfold setUnit
  split <;> rfl

theorem resetUnit_raised (c : Conv) (u : Nat) : (s.resetUnit c u).raised = s.raised := by
  unfold resetUnit
  split
  · exact s.setUnit_raised c u _
  · exact s.setUnit_raised c u _
  · split
    · exact s.setUnit_raised c u _
    · split
      · exact s.setUnit_raised c u _
      · rfl
  · split
    · exact s.setUnit_raised c u _
    · split
      · exact s.setUnit_raised c u _
      · rfl
  · rfl

theorem spedUnit_raised (c : Conv) (u v : Nat) : (s.spedUnit c u v).raised = s.raised := by
  unfold spedUnit
  split <;> rfl

theorem runInUnit_raised (c : Conv) (u : Nat) : (s.runInUnit c u).raised = s.raised := by
  unfold runInUnit
  split
  · rw [restartUnit_eq]
    dsimp only
    split
    · rw [setUnit_raised, spedUnit_raised]
    · rw [spedUnit_raised]
  · rfl

theorem restartUnits_raised (c : Conv) : (s.restartUnits c).raised = s.raised := by
  unfold restartUnits
  exact (forEach_keeps (fun t => t.raised) (fun t u => t.runInUnit c u) (fun t u => t.runInUnit_raised c u) _ _).trans
    (forEach_keeps (fun t => t.raised) (fun t u => t.resetUnit c u) (fun t u => t.resetUnit_raised c u) _ _)

theorem restart_raised (c : Conv) : (s.restart c).raised = s.raised := by
  unfold restart
  rw [restartUnits_raised]
  split
  · exact s.retarget_raised c _
  · exact s.retarget_raised c _

theorem tellEffective_raised (c : Conv) : (s.tellEffective c).raised = s.raised := by
  unfold tellEffective
  split
  · exact s.restart_raised c
  · exact s.recomputeTarget_raised c

/-! ### Targets and the convoy's state (R122, R123) -/

/-- A convoy's target reads neither speeds nor units nor the state it is in. -/
theorem leaderTarget_of_frame {s t : State} {bs : List Block} (h : KeepsAllBut s t bs) {c : Conv}
    (hp : (t.convoy c).params = (s.convoy c).params)
    (ht : t.track c = { s.track c with units := (t.track c).units })
    (hb : Block.mapUnit ∉ bs ∧ Block.interlock ∉ bs ∧ Block.haltSupervisor ∉ bs := by decide) (st : ConvoyState) :
    t.leaderTarget c st = s.leaderTarget c st := by
  obtain ⟨map, road, halt⟩ := hb
  exact leaderTarget_congr (h.map map) (h.road c road) (by rw [ht]) (fun x => h.holds c x road) (h.hls halt) hp
    (by rw [ht]) st

theorem retarget_leaderTarget (c : Conv) (st st' : ConvoyState) :
    (s.retarget c st).leaderTarget c st' = s.leaderTarget c st' := by
  have frame := s.retarget_frame c st
  exact leaderTarget_of_frame frame (congrArg Convoy.params (frame.convoy c)) (by rw [frame.track c]) (by decide) st'

theorem retarget_set {c : Conv} {a : Addr} (h : s.leader? c = some a) (st : ConvoyState) :
    ((s.retarget c st).speed a).set = s.leaderTarget c st := by rw [s.retarget_some h, applyTarget_set]

theorem retarget_others (c : Conv) (st : ConvoyState) : KeepsOtherTrucks s (s.retarget c st) (truckAddrs (s.members c)) :=
  fun _ ha => s.retarget_other (fun h => ha (s.leader_mem h)) st

/-- The first part of the restart procedure: the target, and the state. -/
def resumed (c : Conv) : State :=
  if (s.convoy c).state = .waiting ∧ 0 < s.leaderTarget c (s.convoy c).state
  then (s.retarget c (s.convoy c).state).setState c .rolling
  else s.retarget c (s.convoy c).state

theorem restart_eq (c : Conv) : s.restart c = (s.resumed c).restartUnits c := by
  unfold restart resumed
  have state : ((s.retarget c (s.convoy c).state).convoy c).state = (s.convoy c).state :=
    congrArg Convoy.state ((s.retarget_frame c _).convoy c)
  dsimp only
  rw [state]

theorem resumed_frame (c : Conv) : KeepsAllBut s (s.resumed c) [.convoyTable, .governor, .dispatcher] :=
  .ite ((s.retarget_frame c _).mono.trans (setState_frame _ c _).mono) (s.retarget_frame c _).mono

theorem resumed_speed (c : Conv) (a : Addr) : (s.resumed c).speed a = (s.retarget c (s.convoy c).state).speed a := by
  unfold resumed
  split <;> rfl

theorem resumed_radio (c : Conv) (a : Addr) : (s.resumed c).radio a = (s.retarget c (s.convoy c).state).radio a := by
  unfold resumed
  split <;> rfl

/-- The convoy after the report of an effective grant. -/
def toldConvoy (c : Conv) : Convoy :=
  { s.convoy c with state :=
      if (s.convoy c).state = .waiting ∧ 0 < s.leaderTarget c .waiting then .rolling else (s.convoy c).state }

theorem resumed_convoy (c d : Conv) : (s.resumed c).convoy d = if d = c then s.toldConvoy c else s.convoy d := by
  have kept (d : Conv) : (s.retarget c (s.convoy c).state).convoy d = s.convoy d := (s.retarget_frame c _).convoy d
  unfold resumed toldConvoy
  by_cases moves : (s.convoy c).state = .waiting ∧ 0 < s.leaderTarget c (s.convoy c).state
  · have moves' : (s.convoy c).state = .waiting ∧ 0 < s.leaderTarget c .waiting := ⟨moves.1, moves.1 ▸ moves.2⟩
    rw [if_pos moves, if_pos moves', setState, convoy_modConvoy, kept, kept]
  · have stays : ¬ ((s.convoy c).state = .waiting ∧ 0 < s.leaderTarget c .waiting) :=
      fun k => moves ⟨k.1, k.1.symm ▸ k.2⟩
    rw [if_neg moves, if_neg stays, kept]
    split
    · rename_i hd
      rw [hd]
    · rfl

theorem resumed_trucks (c : Conv) : (s.resumed c).cvt.trucks = s.cvt.trucks := by
  have kept := congrArg ConvoyTable.trucks (s.retarget_frame c (s.convoy c).state).cvt
  unfold resumed
  split
  · exact kept
  · exact kept

theorem unitReset_congr {s t : State} {c : Conv} (hm : t.members c = s.members c) (ht : t.track c = s.track c)
    (st : ConvoyState) (u : Nat) : t.unitReset c st u = s.unitReset c st u := by
  have last : t.lastAtHead c u = s.lastAtHead c u := by simp only [lastAtHead, unitsFor, hm, ht]
  have state : t.unitState? c u = s.unitState? c u := by rw [unitState?, unitState?, ht]
  simp only [unitReset, last, state]

/-- The restart procedure touches the trucks of its convoy alone. -/
theorem restartUnits_speed {c : Conv} {a : Addr} (h : a ∉ truckAddrs (s.members c)) :
    (s.restartUnits c).speed a = s.speed a := by
  have runIn (t : State) (u : Nat) (ht : t.members c = s.members c ∧ t.speed a = s.speed a) :
      (t.runInUnit c u).members c = s.members c ∧ (t.runInUnit c u).speed a = s.speed a := by
    obtain ⟨members, speed⟩ := ht
    refine ⟨(t.runInUnit_same c u).members.trans members, ?_⟩
    rw [speed_runInUnit, if_neg, speed]
    exact fun ⟨_, ha⟩ => h (members ▸ t.unitTruck_mem ha)
  have reset := forEach_inv (fun t => SameUnits s t c) (fun t u => t.resetUnit c u)
    (fun t u h => h.trans (t.resetUnit_same c u)) s (s.followers c) (.refl s c)
  exact (forEach_inv (fun t => t.members c = s.members c ∧ t.speed a = s.speed a) (fun t u => t.runInUnit c u) runIn _ _
    ⟨reset.members, s.resetUnits_speed c _ a⟩).2

/-! ### The report (R84, R109) -/

/-- What the report of an effective grant makes of a formed convoy. -/
structure Told (s t : State) (c : Conv) : Prop where
  convoy : t.convoy c = s.toldConvoy c
  others : KeepsOtherConvoys s t c
  trucks : t.cvt.trucks = s.cvt.trucks
  track : t.track c = { s.track c with units := (t.track c).units }
  units : (s.convoy c).state ≠ .waiting → t.track c = s.track c
  restarted : (truckAddrs (s.members c)).Nodup → (s.convoy c).state = .waiting →
    UnitsRestarted s t c (t.convoy c).state
  leader : s.formed c = true → (truckAddrs (s.members c)).Nodup →
    (∀ a, s.leader? c = some a → t.speed a = (s.retarget c (s.convoy c).state).speed a)
  radio : ∀ a, t.radio a = s.radio a ∨ t.radio a = (s.retarget c (s.convoy c).state).radio a
  otherTrucks : KeepsOtherTrucks s t (truckAddrs (s.members c))

/-- The restart procedure of a WAITING convoy. -/
theorem restart_told {c : Conv} (h : (s.convoy c).state = .waiting) : Told s (s.restart c) c := by
  have resumed := s.resumed_frame c
  have units := (s.resumed c).restartUnits_frame c
  have same := (s.resumed c).restartUnits_same c
  have convoy : (s.resumed c).convoy c = s.toldConvoy c := by rw [resumed_convoy, if_pos rfl]
  have members : (s.resumed c).members c = s.members c := by rw [State.members, convoy]; rfl
  have track : (s.resumed c).track c = s.track c := resumed.track c
  have truck (u : Nat) : (s.resumed c).unitTruck? c u = s.unitTruck? c u := by rw [unitTruck?, unitTruck?, members]
  have runs : ((s.resumed c).convoy c).state = .rolling ∨ ((s.resumed c).convoy c).state.runsIn = true := by
    rw [convoy, toldConvoy]
    dsimp only
    split
    · exact .inl rfl
    · exact .inr (by rw [h]; rfl)
  have spec (hc : (truckAddrs (s.members c)).Nodup) := (s.resumed c).restartUnits_spec (c := c) (by rwa [members]) runs
  have kept (hc : (truckAddrs (s.members c)).Nodup) (a : Addr)
      (ha : ∀ u, 1 ≤ u → u < unitCount (s.members c) → s.unitTruck? c u ≠ some a) :
      ((s.resumed c).restartUnits c).speed a = (s.retarget c (s.convoy c).state).speed a := by
    rw [← resumed_speed]
    refine (spec hc).2 a fun u one count => ?_
    rw [members] at count
    rw [truck]
    exact ha u one count
  rw [restart_eq]
  refine ⟨?_, fun d hd => ⟨?_, ?_, ?_⟩, ?_, ?_, fun k => absurd h k, fun hc _ => ?_, fun _ hc a ha => ?_, fun a => .inr ?_,
    fun a ha => ⟨?_, ?_⟩⟩
  · rw [units.convoy, convoy]
  · rw [units.convoy, resumed_convoy, if_neg hd]
  · rw [units.road, resumed.road]
  · rw [restartUnits_other _ hd, resumed.track]
  · rw [units.cvt, resumed_trucks]
  · rw [same.track, track]
  · rw [units.convoy]
    intro u one count
    obtain ⟨states, speeds⟩ := (spec hc).1 u one (by rwa [members])
    simp only [unitReset_congr members track] at states speeds
    refine ⟨states, fun a ha => ?_⟩
    rw [speeds a (by rwa [truck]), resumed_speed, (s.retarget_other (s.leader_ne_follower hc one ha) _).1]
  · exact kept hc a fun u one _ hu => s.leader_ne_follower hc one hu ha
  · rw [units.radio, resumed_radio]
  · rw [restartUnits_speed _ (by rwa [members]), resumed_speed, (s.retarget_others c _ a ha).1]
  · rw [units.radio, resumed_radio, (s.retarget_others c _ a ha).2]

theorem toldConvoy_moving {c : Conv} (h : (s.convoy c).state ≠ .waiting) : s.toldConvoy c = s.convoy c := by
  rw [toldConvoy, if_neg fun k => h k.1]

/-- The report to a convoy that is not WAITING: its target alone. -/
theorem recomputeTarget_told {c : Conv} (h : (s.convoy c).state ≠ .waiting) : Told s (s.recomputeTarget c) c := by
  have frame := s.recomputeTarget_frame c
  refine ⟨?_, fun d _ => ⟨frame.convoy d, frame.road d, frame.track d⟩, congrArg ConvoyTable.trucks frame.cvt, ?_,
    fun _ => frame.track c, fun _ k => absurd k h, fun formed _ a _ => ?_, fun a => ?_, ?_⟩
  · rw [frame.convoy, toldConvoy_moving _ h]
  · rw [frame.track]
  · rw [s.recomputeTarget_formed formed]
  · unfold recomputeTarget
    split
    · exact .inr rfl
    · exact .inl rfl
  · unfold recomputeTarget
    split
    · exact s.retarget_others c _
    · exact .refl s _

theorem tellEffective_told (c : Conv) : Told s (s.tellEffective c) c := by
  unfold tellEffective
  split
  · rename_i h
    exact s.restart_told h
  · rename_i h
    exact s.recomputeTarget_told h

section
variable {s} {t : State} {c : Conv}

theorem Told.convoyKept (h : Told s t c) : (t.convoy c).params = (s.convoy c).params
    ∧ (t.convoy c).members = (s.convoy c).members ∧ (t.convoy c).owner = (s.convoy c).owner := by
  rw [h.convoy]
  exact ⟨rfl, rfl, rfl⟩

theorem Told.branch (h : Told s t c) (a : Addr) : (t.radio a).branch = (s.radio a).branch := by
  rcases h.radio a with k | k
  · rw [k]
  · rw [k, retarget_branch]

end

/-- The report leaves what a target reads. -/
theorem tellEffective_leaderTarget (c : Conv) (st : ConvoyState) :
    (s.tellEffective c).leaderTarget c st = s.leaderTarget c st := by
  have told := s.tellEffective_told c
  exact leaderTarget_of_frame (s.tellEffective_frame c) told.convoyKept.1 told.track (by decide) st

end State

end Sys2Proof.Machine
end

section
/-!
SUPPORT. What a grant makes of road, queues, convoys and trucks (R81 to R84).
-/

namespace Sys2Proof.Machine

open Sys2Proof

set_option Elab.async false

namespace State

/-! ### The evaluation of a watch (R83) -/

section
variable {s t : State} {c : Conv} (hm : t.map = s.map) (hr : (t.road c).route = (s.road c).route)
include hm hr

theorem forkFrom_congr (j fuel : Nat) : t.forkFrom c j fuel = s.forkFrom c j fuel := by
  induction fuel generalizing j with
  | zero => rfl
  | succ n ih =>
    have at_j : t.routeAt c j = s.routeAt c j := by rw [routeAt, routeAt, hr]
    rw [forkFrom, forkFrom, at_j]
    cases s.routeAt c j with
    | none => rfl
    | some x => simp only [hm, ih]

theorem branchFor_congr (j : Nat) : t.branchFor c j = s.branchFor c j := by
  have at_i (i : Nat) : t.routeAt c i = s.routeAt c i := by rw [routeAt, routeAt, hr]
  simp only [branchFor, firstFork, hr, forkFrom_congr hm hr, at_i, hm]

theorem watchable_congr (hj : (t.track c).head = (s.track c).head) (hx : ∀ x, t.holds c x = s.holds c x) :
    t.watchable c = s.watchable c := by
  have at_i (i : Nat) : t.routeAt c i = s.routeAt c i := by rw [routeAt, routeAt, hr]
  simp only [watchable, firstFork, hr, hj, forkFrom_congr hm hr, at_i, hx]

end

variable (s : State)

section
variable (c : Conv)

theorem sec_evalWatch (x : Sec) : (s.evalWatch c).sec x = s.sec x := by
  rw [sec, s.sil_evalWatch c]
  rfl

theorem grp_evalWatch (g : Grp) : (s.evalWatch c).grp g = s.grp g := by
  rw [grp, s.sil_evalWatch c]
  rfl

theorem queue_evalWatch (y : Resource) : (s.evalWatch c).queue y = s.queue y := by
  cases y with
  | sec x => exact congrArg Section.queue (s.sec_evalWatch c x)
  | grp g => exact congrArg Group.queue (s.grp_evalWatch c g)

theorem road_evalWatch (d : Conv) : (s.evalWatch c).road d =
    if d = c then { s.road c with watch := s.watchAfter c } else s.road d := by
  rw [← road_modRoad s c d fun w => { w with watch := s.watchAfter c }]
  exact congrArg (fun k => Tab.nth (Interlock.roads k) d) (s.sil_evalWatch c)

theorem queue_of_sil {s t : State} (h : t.sil = s.sil) (y : Resource) : t.queue y = s.queue y := by
  cases y with
  | sec x => rw [queue_sec, queue_sec, sec, h, sec]
  | grp g => rw [queue_grp, queue_grp, grp, h, grp]

theorem watchable_evalWatch : (s.evalWatch c).watchable c = s.watchable c :=
  watchable_congr (s.evalWatch_frame c).map (by rw [road_evalWatch]; simp) (by rw [(s.evalWatch_frame c).track])
    fun x => holds_congr (by rw [sec_evalWatch]) c

theorem evalWatch_raised : (s.evalWatch c).raised = s.raised := by
  unfold evalWatch
  split
  · rfl
  · split
    · rfl
    · dsimp only
      split
      · exact markBranch_raised _ _
      · rfl

theorem markBranch_radio (a b : Addr) : ((s.markBranch a).radio b).branch = (s.radio b).branch
    ∧ (b ≠ a → (s.markBranch a).radio b = s.radio b) := by
  unfold markBranch
  split
  · by_cases hb : b = a
    · subst hb
      simp
    · simp [hb]
  · exact ⟨rfl, fun _ => rfl⟩

/-- An evaluation marks a BRANCH frame of the leader, if anything. -/
theorem evalWatch_radio (b : Addr) : ((s.evalWatch c).radio b).branch = (s.radio b).branch
    ∧ (b ∉ truckAddrs (s.members c) → (s.evalWatch c).radio b = s.radio b) := by
  unfold evalWatch
  split
  · exact ⟨rfl, fun _ => rfl⟩
  · split
    · exact ⟨rfl, fun _ => rfl⟩
    · dsimp only
      split
      · rename_i a leader
        obtain ⟨branch, other⟩ := markBranch_radio (s.modRoad c fun r => { r with watch := .awaiting _ }) a b
        exact ⟨branch, fun hb => other fun e => hb (e ▸ leader_mem _ leader)⟩
      · exact ⟨rfl, fun _ => rfl⟩

end

/-! ### A grant, before and after the report (R81) -/

/-- The first steps of a grant: the entry leaves its queue, the resource is held, the owner is told. -/
def taken (r : Resource) (e : Entry) : State :=
  (((s.modQueue r fun q => q.filter fun f => f.conv != e.conv).modRoad e.conv fun w =>
    { w with req := .idle }).holdResource e.conv r).raise (Notice.ofConvoy .granted e.conv (some e.sec)) (.ownerOf e.conv)

/-- A grant up to the report of the next section. -/
def granting (r : Resource) (e : Entry) : State := (s.taken r e).evalWatch e.conv

theorem grantTo_eq (r : Resource) (e : Entry) : s.grantTo r e =
    if (s.granting r e).nextEffective e.conv then (s.granting r e).tellEffective e.conv else s.granting r e := rfl

section
variable (r : Resource) (e : Entry)

theorem recipients_of_frame {s t : State} {bs : List Block} (h : KeepsAllBut s t bs) (who : Audience)
    (hb : Block.mapUnit ∉ bs ∧ Block.convoyTable ∉ bs ∧ Block.consolePorts ∉ bs := by decide) :
    t.recipients who = s.recipients who := by
  obtain ⟨map, convoys, ports⟩ := hb
  have attached : t.attachedPorts = s.attachedPorts := by simp only [attachedPorts, State.port, h.ports ports]
  have level : t.level = s.level := funext fun p => congrArg (fun m => m.settings.levels.nth p) (h.map map)
  have zero : t.levelZeroPorts = s.levelZeroPorts := by rw [levelZeroPorts, levelZeroPorts, attached, level]
  unfold recipients
  split
  · exact attached
  · exact zero
  · rename_i c
    rw [h.convoy c convoys, zero]
  · rfl

theorem taken_frame : KeepsAllBut s (s.taken r e) [.interlock] :=
  (((s.modQueue_frame r _).trans (modRoad_frame _ e.conv _)).trans (holdResource_frame _ e.conv r)).trans
    (raise_frame _ _ _).mono

open Classical in
theorem sec_taken (x : Sec) : (s.taken r e).sec x =
    { s.sec x with
      dyn := if Within s.map r x then .held e.conv else (s.sec x).dyn
      queue := if r = .sec x then (s.sec x).queue.filter (fun f => f.conv != e.conv) else (s.sec x).queue } := by
  have map : (s.modQueue r fun q => q.filter fun f => f.conv != e.conv).map = s.map := (s.modQueue_frame r _).map
  rw [taken, sec_raise, sec_holdResource, sec_modRoad, map_modRoad, map, sec_modQueue]
  split <;> rfl

theorem holder_taken (g : Grp) : ((s.taken r e).grp g).holder = if r = .grp g then some e.conv else (s.grp g).holder := by
  rw [taken, grp_raise, grp_holdResource, grp_modRoad, grp_modQueue]
  split <;> rfl

theorem queue_taken (y : Resource) : (s.taken r e).queue y =
    if y = r then (s.queue r).filter (fun f => f.conv != e.conv) else s.queue y := by
  rw [taken, queue_raise, queue_holdResource, queue_modRoad, queue_modQueue]

theorem road_taken (d : Conv) : (s.taken r e).road d = if d = e.conv then { s.road d with req := .idle } else s.road d := by
  rw [taken, road_raise, road_holdResource, road_modRoad, road_modQueue, road_modQueue]
  split
  · rename_i hd
    rw [hd]
  · rfl

theorem taken_raised : (s.taken r e).raised =
    s.raised ++ [⟨⟨.granted, some e.conv, some e.sec, none, none, 0⟩, s.recipients (.ownerOf e.conv)⟩] := by
  have quiet : (s.modQueue r fun q => q.filter fun f => f.conv != e.conv).raised = s.raised := by cases r <;> rfl
  have held (t : State) : (t.holdResource e.conv r).raised = t.raised := by
    cases r with
    | sec x => rfl
    | grp g => exact forEach_keeps (fun t => t.raised) (fun t x => t.holdSec e.conv x) (fun _ _ => rfl) _ _
  rw [taken, raise_raised, held, modRoad_raised, quiet]
  rw [recipients_of_frame (((s.modQueue_frame r _).trans (modRoad_frame _ e.conv _)).trans (holdResource_frame _ e.conv r))]
  rfl

theorem granting_frame : KeepsAllBut s (s.granting r e) [.interlock, .dispatcher] :=
  (s.taken_frame r e).mono.trans (evalWatch_frame _ e.conv)

theorem sec_granting (x : Sec) : (s.granting r e).sec x = (s.taken r e).sec x := sec_evalWatch _ _ x

theorem grp_granting (g : Grp) : (s.granting r e).grp g = (s.taken r e).grp g := grp_evalWatch _ _ g

/-- A grant marks a frame of the leader, if anything. -/
theorem granting_radio (b : Addr) : ((s.granting r e).radio b).branch = (s.radio b).branch
    ∧ (b ∉ truckAddrs (s.members e.conv) → (s.granting r e).radio b = s.radio b) := by
  have frame := s.taken_frame r e
  have eval := evalWatch_radio (s.taken r e) e.conv b
  rw [frame.radio, frame.members] at eval
  exact eval

/-! ### A grant, complete -/

/-- The report of the next section leaves the road as it is. -/
theorem grantTo_sil : (s.grantTo r e).sil = (s.granting r e).sil := by
  rw [grantTo_eq]
  split
  · exact (tellEffective_frame _ e.conv).sil
  · rfl

open Classical in
theorem sec_grantTo (x : Sec) : (s.grantTo r e).sec x =
    { s.sec x with
      dyn := if Within s.map r x then .held e.conv else (s.sec x).dyn
      queue := if r = .sec x then (s.sec x).queue.filter (fun f => f.conv != e.conv) else (s.sec x).queue } := by
  rw [← sec_taken, ← sec_granting, sec, grantTo_sil, sec]

theorem holder_grantTo (g : Grp) : ((s.grantTo r e).grp g).holder =
    if r = .grp g then some e.conv else (s.grp g).holder := by
  rw [← holder_taken, ← grp_granting, grp, grantTo_sil, grp]

theorem queue_grantTo (y : Resource) : (s.grantTo r e).queue y =
    if y = r then (s.queue r).filter (fun f => f.conv != e.conv) else s.queue y := by
  rw [← queue_taken]
  exact (queue_of_sil (s.grantTo_sil r e) y).trans (queue_evalWatch _ e.conv y)

/-- Where the report is made, it is made of the state so far. -/
theorem grantTo_told : s.grantTo r e = s.granting r e ∨ Told (s.granting r e) (s.grantTo r e) e.conv := by
  rw [grantTo_eq]
  split
  · exact .inr (tellEffective_told _ _)
  · exact .inl rfl

theorem grantTo_track (d : Conv) : (s.grantTo r e).track d =
    { s.track d with units := ((s.grantTo r e).track d).units } := by
  have frame := s.granting_frame r e
  rcases s.grantTo_told r e with h | h
  · rw [h, frame.track]
  · by_cases hd : d = e.conv
    · subst hd
      rw [h.track, frame.track]
    · rw [(h.others d hd).2.2, frame.track]

theorem road_grantTo_eq (d : Conv) : (s.grantTo r e).road d = if d = e.conv then
    { s.road d with req := .idle, watch := (s.taken r e).watchAfter e.conv } else s.road d := by
  have road : (s.grantTo r e).road d = (s.granting r e).road d := by rw [road, grantTo_sil, road]
  rw [road, granting, road_evalWatch]
  by_cases hd : d = e.conv
  · subst hd
    simp [road_taken]
  · simp [hd, road_taken]

/-- The road of a convoy that is granted: its request IDLE, its watch evaluated. -/
theorem road_grantTo : (s.grantTo r e).road e.conv =
    ⟨(s.road e.conv).route, .idle, match (s.grantTo r e).watchable e.conv with
      | some m => if (s.road e.conv).watch.index? = some m then (s.road e.conv).watch else .awaiting m
      | none => (s.road e.conv).watch⟩ := by
  have route : ((s.grantTo r e).road e.conv).route = ((s.taken r e).road e.conv).route := by
    simp [road_grantTo_eq, road_taken]
  have watchable : (s.grantTo r e).watchable e.conv = (s.taken r e).watchable e.conv :=
    watchable_congr ((s.grantTo_frame r e).map.trans (s.taken_frame r e).map.symm) route
      (by rw [grantTo_track, (s.taken_frame r e).track])
      fun x => holds_congr (by rw [sec_grantTo, sec_taken]) e.conv
  have watch : ((s.taken r e).road e.conv).watch = (s.road e.conv).watch := by simp [road_taken]
  rw [road_grantTo_eq, if_pos rfl, watchable, watchAfter, watch] <;> rfl

theorem heldWhole_grantTo : (s.grantTo r e).heldWhole e.conv r := by
  have map : (s.grantTo r e).map = s.map := (s.grantTo_frame r e).map
  have sec {x : Sec} (h : Within s.map r x) : (s.grantTo r e).secHolder x = some e.conv := by
    rw [secHolder_eq_some, sec_grantTo]
    exact if_pos h
  cases r with
  | sec x => exact sec (.inl rfl)
  | grp g => exact ⟨by simp [holder_grantTo], fun x hx => sec (.inr ⟨g, rfl, map ▸ hx⟩)⟩

theorem grantTo_raised : (s.grantTo r e).raised =
    s.raised ++ [⟨⟨.granted, some e.conv, some e.sec, none, none, 0⟩, s.recipients (.ownerOf e.conv)⟩] := by
  have before := (evalWatch_raised (s.taken r e) e.conv).trans (s.taken_raised r e)
  rw [grantTo_eq]
  split
  · exact (tellEffective_raised _ _).trans before
  · exact before

theorem grantTo_otherConvoys : KeepsOtherConvoys s (s.grantTo r e) e.conv := fun d hd => by
  have frame := s.granting_frame r e
  refine ⟨?_, by rw [road_grantTo_eq, if_neg hd], ?_⟩
  · rcases s.grantTo_told r e with h | h
    · rw [h, frame.convoy]
    · rw [(h.others d hd).1, frame.convoy]
  · rcases s.grantTo_told r e with h | h
    · rw [h, frame.track]
    · rw [(h.others d hd).2.2, frame.track]

theorem grantTo_otherTrucks : KeepsOtherTrucks s (s.grantTo r e) (truckAddrs (s.members e.conv)) := fun a ha => by
  have frame := s.granting_frame r e
  have radio := (s.granting_radio r e a).2 ha
  rcases s.grantTo_told r e with h | h
  · rw [h, frame.speed, radio]
    exact ⟨rfl, rfl⟩
  · obtain ⟨sped, sent⟩ := h.otherTrucks a (by rwa [frame.members])
    exact ⟨sped.trans (frame.speed a), sent.trans radio⟩

/-- Whether the next section is effective, the report does not change. -/
theorem grantTo_nextEffective : (s.grantTo r e).nextEffective e.conv = (s.granting r e).nextEffective e.conv := by
  have frame := tellEffective_frame (s.granting r e) e.conv
  have told := tellEffective_told (s.granting r e) e.conv
  have same : ((s.granting r e).tellEffective e.conv).nextEffective e.conv = (s.granting r e).nextEffective e.conv :=
    nextEffective_congr frame.map (frame.road e.conv) (by rw [told.track]) fun x => frame.holds e.conv x
  rw [grantTo_eq]
  by_cases h : (s.granting r e).nextEffective e.conv = true
  · rw [if_pos h, same]
  · rw [if_neg h]

theorem grantTo_untold (h : (s.grantTo r e).nextEffective e.conv = false) : s.grantTo r e = s.granting r e := by
  rw [grantTo_nextEffective] at h
  rw [grantTo_eq, if_neg (by simp [h])]

theorem grantTo_effective (h : (s.grantTo r e).nextEffective e.conv = true) :
    s.grantTo r e = (s.granting r e).tellEffective e.conv := by
  rw [grantTo_nextEffective] at h
  rw [grantTo_eq, if_pos h]

end

end State

end Sys2Proof.Machine
end

section
/-!
SUPPORT. Grant scans and requests as a whole: what they leave as it is (`Scanned`), that a scan is the grant and the
convoy's next request, and what a request leads to (R77 to R82).
-/

namespace Sys2Proof.Machine

open Sys2Proof

set_option Elab.async false

/-- What grants and requests for road leave as it is: holders keep what they hold, stocks, routes and trucks stay, a convoy
is restarted at most, and the tracking of one that is not WAITING stays. -/
structure Scanned (s t : State) : Prop where
  frame : KeepsAllBut s t State.reach
  held : ∀ x d, s.secHolder x = some d → t.secHolder x = some d
  groups : ∀ g d, (s.grp g).holder = some d → (t.grp g).holder = some d
  stock : ∀ x, (t.sec x).stock = (s.sec x).stock
  route : ∀ d, (t.road d).route = (s.road d).route
  convoy : ∀ d, t.convoy d = s.convoy d ∨ (s.convoy d).state = .waiting ∧ t.convoy d = { s.convoy d with state := .rolling }
  trucks : t.cvt.trucks = s.cvt.trucks
  track : ∀ d, t.track d = { s.track d with units := (t.track d).units }
  units : ∀ d, (s.convoy d).state ≠ .waiting → t.track d = s.track d
  branch : ∀ a, (t.radio a).branch = (s.radio a).branch

theorem Scanned.refl (s : State) : Scanned s s :=
  ⟨.refl s _, fun _ _ => id, fun _ _ => id, fun _ => rfl, fun _ => rfl, fun _ => .inl rfl, rfl, fun _ => rfl, fun _ _ => rfl,
    fun _ => rfl⟩

/-- A convoy that is not WAITING keeps its record. -/
theorem Scanned.convoy_moving {s t : State} (h : Scanned s t) {d : Conv} (hd : (s.convoy d).state ≠ .waiting) :
    t.convoy d = s.convoy d := (h.convoy d).resolve_right fun k => hd k.1

theorem Scanned.trans {s t u : State} (h : Scanned s t) (k : Scanned t u) : Scanned s u where
  frame := h.frame.trans k.frame
  held x d hx := k.held x d (h.held x d hx)
  groups g d hg := k.groups g d (h.groups g d hg)
  stock x := (k.stock x).trans (h.stock x)
  route d := (k.route d).trans (h.route d)
  convoy d := by
    rcases h.convoy d with first | ⟨waits, first⟩
    · rcases k.convoy d with second | ⟨waits, second⟩
      · exact .inl (second.trans first)
      · exact .inr ⟨first ▸ waits, by rw [second, first]⟩
    · exact .inr ⟨waits, by rw [k.convoy_moving (by simp [first]), first]⟩
  trucks := k.trucks.trans h.trucks
  track d := by rw [k.track d, h.track d]
  units d hd := (k.units d (by rwa [h.convoy_moving hd])).trans (h.units d hd)
  branch a := (k.branch a).trans (h.branch a)

/-- An effect on queues and requests alone. -/
theorem Scanned.of_dyn {s t : State} (hf : KeepsAllBut s t [.interlock])
    (hd : ∀ x, (t.sec x).dyn = (s.sec x).dyn ∧ (t.sec x).stock = (s.sec x).stock)
    (hg : ∀ g, (t.grp g).holder = (s.grp g).holder) (hr : ∀ d, (t.road d).route = (s.road d).route) : Scanned s t where
  frame := hf.mono
  held x d h := (State.secHolder_congr (hd x).1).trans h
  groups g d h := (hg g).trans h
  stock x := (hd x).2
  route := hr
  convoy d := .inl (hf.convoy d)
  trucks := congrArg ConvoyTable.trucks hf.cvt
  track d := by rw [hf.track]
  units d _ := hf.track d
  branch a := by rw [hf.radio]

theorem Scanned.forEach {α : Type} {f : State → α → State} (h : ∀ s a, Scanned s (f s a)) (s : State) (l : List α) :
    Scanned s (s.forEach l f) := State.forEach_inv (Scanned s) f (fun _ a k => k.trans (h _ a)) s l (.refl s)

theorem Scanned.heldWhole {s t : State} (h : Scanned s t) {c : Conv} {r : Resource} (k : s.heldWhole c r) :
    t.heldWhole c r := State.heldWhole_mono h.frame.map (fun x => h.held x c) (fun g => h.groups g c) k

namespace State

variable (s : State)

/-! ### Queues and requests -/

theorem modQueue_scanned (r : Resource) (f : List Entry → List Entry) : Scanned s (s.modQueue r f) :=
  .of_dyn (s.modQueue_frame r f) (fun x => by rw [sec_modQueue]; exact ⟨rfl, rfl⟩) (fun g => by simp) fun d => by simp

theorem setReq_scanned (c : Conv) (q : ReqState) : Scanned s (s.modRoad c fun w => { w with req := q }) :=
  .of_dyn (s.modRoad_frame c _) (fun x => ⟨rfl, rfl⟩) (fun g => rfl) fun d => by
    rw [road_modRoad]
    split
    · rename_i hd
      rw [hd]
    · rfl

theorem join_scanned (c : Conv) (k : Nat) (x : Sec) (r : Resource) : Scanned s (s.join c k x r) :=
  (s.modQueue_scanned r _).trans (setReq_scanned _ c _)

theorem raise_scanned (n : Notice) (who : Audience) : Scanned s (s.raise n who) :=
  .of_dyn (s.raise_frame n who).mono (fun _ => ⟨rfl, rfl⟩) (fun _ => rfl) fun _ => rfl

theorem refuse_scanned (c : Conv) (x : Sec) (r : Resource) : Scanned s (s.refuse c x r) :=
  (s.setReq_scanned c .refused).trans (raise_scanned _ _ _)

theorem withdraw_scanned (c : Conv) : Scanned s (s.withdraw c) := by
  unfold withdraw
  split
  · exact (s.modQueue_scanned _ _).trans (setReq_scanned _ c _)
  · exact .refl s
  · exact s.setReq_scanned c _

/-! ### Grants -/

theorem grantTo_scanned {r : Resource} {e : Entry} (h : s.eligible r e = true) : Scanned s (s.grantTo r e) where
  frame := s.grantTo_frame r e
  held x d hx := by
    have outside : ¬ Within s.map r x := fun k => by simp [(s.eligible_unheld h).1 x k] at hx
    rwa [secHolder_congr (s := s) (by rw [sec_grantTo]; exact if_neg outside)]
  groups g d hg := by
    have other : r ≠ .grp g := fun k => by simp [(s.eligible_unheld h).2 g k] at hg
    rw [holder_grantTo, if_neg other, hg]
  stock x := by rw [sec_grantTo]
  route d := by
    rw [road_grantTo_eq]
    split <;> rfl
  convoy d := by
    have frame := s.granting_frame r e
    rcases s.grantTo_told r e with k | k
    · exact .inl (by rw [k, frame.convoy])
    · by_cases hd : d = e.conv
      · subst hd
        rw [k.convoy, toldConvoy, frame.convoy]
        by_cases moves : (s.convoy e.conv).state = .waiting ∧ 0 < (s.granting r e).leaderTarget e.conv .waiting
        · rw [if_pos moves]
          exact .inr ⟨moves.1, rfl⟩
        · rw [if_neg moves]
          exact .inl rfl
      · exact .inl ((s.grantTo_otherConvoys r e d hd).1)
  trucks := by
    have kept := congrArg ConvoyTable.trucks (s.granting_frame r e).cvt
    rcases s.grantTo_told r e with k | k
    · rw [k, kept]
    · rw [k.trucks, kept]
  track := s.grantTo_track r e
  units d hd := by
    have frame := s.granting_frame r e
    by_cases hc : d = e.conv
    · subst hc
      rcases s.grantTo_told r e with k | k
      · rw [k, frame.track]
      · rw [k.units (by rwa [frame.convoy]), frame.track]
    · exact (s.grantTo_otherConvoys r e d hc).2.2
  branch a := by
    have before := (s.granting_radio r e a).1
    rcases s.grantTo_told r e with k | k
    · rw [k, before]
    · rw [k.branch, before]

theorem scanFuel_scanned (fuel : Nat) (r : Resource) : Scanned s (s.scanFuel fuel r) := by
  induction fuel generalizing s r with
  | zero => exact .refl s
  | succ n ih =>
    unfold scanFuel
    split
    · exact .refl s
    · rename_i e h
      refine (s.grantTo_scanned (s.scanChoice_some h).2.2).trans ?_
      dsimp only
      split
      · exact .refl _
      · split
        · exact refuse_scanned _ _ _ _
        · exact (join_scanned _ _ _ _ _).trans (ih _ _)

theorem scan_scanned (r : Resource) : Scanned s (s.scan r) := s.scanFuel_scanned _ r

theorem anyOrder_scanned {α : Type} (l : List α) : Scanned s (s.anyOrder l).2 := by
  obtain ⟨k, h⟩ := s.anyOrder_state l
  rw [h]
  exact .of_dyn (fun b _ => by cases b <;> rfl) (fun _ => ⟨rfl, rfl⟩) (fun _ => rfl) fun _ => rfl

theorem scanAll_scanned (rs : List Resource) : Scanned s (s.scanAll rs) :=
  (s.anyOrder_scanned _).trans (.forEach (fun t r => t.scan_scanned r) _ _)

theorem request_scanned (c : Conv) : Scanned s (s.request c) := by
  unfold request
  split
  · exact .refl s
  · dsimp only
    split
    · exact s.refuse_scanned _ _ _
    · exact (s.join_scanned _ _ _ _).trans (scan_scanned _ _)

/-! ### The fuel of a scan -/

/-- How many sections nobody holds. -/
def unheldCount : Nat := (Finset.univ.filter fun x : Sec => s.secHolder x = none).card

theorem unheldCount_le : s.unheldCount ≤ 48 := (Finset.card_le_univ _).trans (by simp)

/-- A grant makes a section held. -/
theorem unheldCount_grantTo {r : Resource} {e : Entry} (h : s.eligible r e = true) :
    (s.grantTo r e).unheldCount < s.unheldCount := by
  refine Finset.card_lt_card (Finset.ssubset_iff_of_subset (fun x hx => ?_) |>.mpr ?_)
  · have after : (s.grantTo r e).secHolder x = none := (Finset.mem_filter.mp hx).2
    refine Finset.mem_filter.mpr ⟨Finset.mem_univ x, ?_⟩
    cases hd : s.secHolder x with
    | none => rfl
    | some d => simp [(s.grantTo_scanned h).held x d hd] at after
  · obtain ⟨x, within⟩ := s.eligible_within h
    have held : (s.grantTo r e).secHolder x = some e.conv := by
      rw [secHolder_eq_some, sec_grantTo]
      exact if_pos within
    exact ⟨x, by simp [(s.eligible_unheld h).1 x within], by simp [held]⟩

theorem unheldCount_join (c : Conv) (k : Nat) (x : Sec) (r : Resource) :
    (s.join c k x r).unheldCount = s.unheldCount := by
  have same (y : Sec) : (s.join c k x r).secHolder y = s.secHolder y := secHolder_congr (by simp [join])
  simp only [unheldCount, same]

/-- Fuel above the number of unheld sections is never used up. -/
theorem scanFuel_enough (n m : Nat) (r : Resource) (hn : s.unheldCount < n) (hm : s.unheldCount < m) :
    s.scanFuel n r = s.scanFuel m r := by
  induction n generalizing s m r with
  | zero => omega
  | succ n ih =>
    obtain ⟨m, rfl⟩ : ∃ k, m = k + 1 := ⟨m - 1, by omega⟩
    rw [scanFuel, scanFuel]
    cases h : s.scanChoice r with
    | none => rfl
    | some e =>
      have fewer := s.unheldCount_grantTo (s.scanChoice_some h).2.2
      dsimp only
      cases (s.grantTo r e).wanted e.conv with
      | none => rfl
      | some next =>
        obtain ⟨k, x⟩ := next
        dsimp only
        split
        · rfl
        · exact ih _ _ _ (by rw [unheldCount_join]; omega) (by rw [unheldCount_join]; omega)

/-! ### A scan is the grant and the next request (R81, R82) -/

theorem scan_none {r : Resource} (h : ∀ e, ¬ s.firstEligible r e) : s.scan r = s := by
  rw [← scanChoice_eq_none] at h
  simp [scan, scanFuel, scanLimit, h]

theorem scan_some {r : Resource} {e : Entry} (h : s.firstEligible r e) : s.scan r = (s.grantTo r e).request e.conv := by
  rw [← scanChoice_eq_some] at h
  have fewer := s.unheldCount_grantTo (s.scanChoice_some h).2.2
  have few := s.unheldCount_le
  change s.scanFuel (63 + 1) r = _
  rw [scanFuel, h, request]
  dsimp only
  cases (s.grantTo r e).wanted e.conv with
  | none => rfl
  | some next =>
    obtain ⟨k, x⟩ := next
    dsimp only
    split
    · rfl
    · exact scanFuel_enough _ _ _ _ (by rw [unheldCount_join]; omega) (by rw [unheldCount_join, scanLimit]; omega)

/-- The resource is held whole after the scan that grants it. -/
theorem heldWhole_scan {r : Resource} {e : Entry} (h : s.firstEligible r e) : (s.scan r).heldWhole e.conv r := by
  rw [s.scan_some h]
  exact (request_scanned _ _).heldWhole (s.heldWhole_grantTo r e)

/-! ### A request (R77 to R79) -/

theorem request_none {c : Conv} (h : s.wanted c = none) : s.request c = s := by rw [request, h]

theorem request_refused {c : Conv} {k : Nat} {x : Sec} (h : s.wanted c = some (k, x))
    (hc : s.chainCloses c chainLimit (s.map.resourceOf x) = true) : s.request c = s.refuse c x (s.map.resourceOf x) := by
  rw [request, h]
  exact if_pos hc

theorem request_joined {c : Conv} {k : Nat} {x : Sec} (h : s.wanted c = some (k, x))
    (hc : s.chainCloses c chainLimit (s.map.resourceOf x) = false) :
    s.request c = (s.join c k x (s.map.resourceOf x)).scan (s.map.resourceOf x) := by
  rw [request, h]
  exact if_neg (by simp [hc])

theorem queue_refuse (c : Conv) (x : Sec) (r y : Resource) : (s.refuse c x r).queue y = s.queue y := by
  rw [refuse, queue_raise, queue_modRoad]

theorem road_refuse (c : Conv) (x : Sec) (r : Resource) (d : Conv) : (s.refuse c x r).road d =
    if d = c then { s.road c with req := .refused } else s.road d := by rw [refuse, road_raise, road_modRoad]

/-- A request leads to what `Requested` says. -/
theorem requested_request (c : Conv) : Requested s (s.request c) c := by
  refine ⟨fun h => ?_, fun k x h => ⟨fun closes => ?_, fun opens => ⟨fun none => ?_, fun e first => ?_⟩⟩⟩
  · rw [s.request_none h]
    exact ⟨rfl, fun _ => rfl⟩
  · rw [s.request_refused h closes]
    exact ⟨by rw [road_refuse, if_pos rfl], s.queue_refuse c x _⟩
  · rw [s.request_joined h opens, scan_none _ none]
    exact ⟨by rw [road_join, if_pos rfl], queue_join s c k x _⟩
  · rw [s.request_joined h opens]
    exact heldWhole_scan _ first

end State

/-- Settles O32: a grant scan is the grant to the first eligible entry and its convoy's next request; the grant is read
field by field. -/
theorem grantScansGrantTheFirstEligibleEntry : Obligations.GrantScansGrantTheFirstEligibleEntry := by
  intro s r
  refine ⟨s.scan_none, fun e first trucks => ?_, s.eligible_sec, s.eligible_grp⟩
  have frame := s.granting_frame r e
  dsimp only
  refine ⟨s.scan_some first, s.queue_grantTo r e, s.heldWhole_grantTo r e, fun x => ?_, ?_,
    s.grantTo_raised r e, fun none => ?_, fun effective formed => ?_, s.grantTo_otherConvoys r e,
    s.grantTo_otherTrucks r e, s.grantTo_frame r e⟩
  case refine_2 =>
    rw [s.road_grantTo r e] <;> cases (s.grantTo r e).watchable e.conv <;> rfl
  · by_cases within : State.Within s.map r x
    · exact .inl within
    · have other : r ≠ .sec x := fun h => within (.inl h)
      exact .inr (by rw [State.sec_grantTo, if_neg within, if_neg other])
  · rw [s.grantTo_untold r e none]
    exact ⟨frame.convoy _, frame.hwg, frame.track _⟩
  · have told := State.tellEffective_told (s.granting r e) e.conv
    rw [s.grantTo_effective r e effective, State.tellEffective_leaderTarget, State.tellEffective_leaderTarget]
    have members : (s.granting r e).members e.conv = s.members e.conv := frame.members _
    have convoy : (s.granting r e).convoy e.conv = s.convoy e.conv := frame.convoy _
    refine ⟨?_, fun a leader => ?_, fun waits u one count => ?_⟩
    · rw [told.convoy, State.toldConvoy, convoy]
    · have set := State.retarget_set (s.granting r e) (c := e.conv) (a := a) (by rwa [State.leader?, members])
        (s.convoy e.conv).state
      rw [told.leader (by rwa [State.formed, convoy]) (by rwa [members]) a (by rwa [State.leader?, members]), convoy, set]
    · have restarted := told.restarted (by rwa [members]) (by rwa [convoy]) u one (by rwa [members])
      simp only [State.unitReset_congr members (frame.track _), State.unitTruck?, members, frame.speed] at restarted
      exact restarted

end Sys2Proof.Machine
end

section
/-!
The requests that set a section, and the end of its clearance: O33, O34. Before them what an event makes of a grant scan.
-/

namespace Sys2Proof.Machine

open Sys2Proof

set_option Elab.async false

/-! ### Events that end in a grant scan -/

/-- The end of an event leaves the road held that the event's effect has granted. -/
theorem State.heldWhole_delivered {u : State} {c : Conv} {r : Resource} (h : u.heldWhole c r) (n : Nat)
    (ps : PerPort PortState) : State.heldWhole { u with raised := [], fresh := n, ports := ps } c r := by
  cases r <;> exact h

/-- An event, whose effect reaches the blocks of the road, reaches these and the ports. -/
theorem KeepsAllBut.delivered {s u : State} (h : KeepsAllBut s u roadBlocks) (n : Nat) (ps : PerPort PortState) :
    KeepsAllBut s { u with raised := [], fresh := n, ports := ps } roadBlocks := fun b hb => by
  have kept := h b hb
  cases b
  case consolePorts => exact absurd (by decide) hb
  all_goals exact kept

section
variable {s : State} {p : Port} (k : Kind) (tag : Byte) (owner : State → Result)

/-- A request of level 0 that its owner block refuses. -/
theorem State.serve_zeroRefused (h : Serves s p) (hl : s.level p = 0) (hk : k.haltPayload = false) (code : ReplyCode)
    (detail : List Byte) (ho : owner (s.heard p) = (s.heard p).refusal code detail) :
    s.serve p k tag owner = s.replied p (s.port p).lastConvoy (k.code ||| 0x80) tag code detail := by
  rw [s.serve_owner p k tag owner h fun _ => hl, ho]
  exact s.sees_refused p _ k tag code detail h.1 hk

/-- A request whose owner block ends in a scan that grants. -/
theorem State.serve_granted (h : Serves s p) (hl : s.level p = 0) (hk : k.haltPayload = false) {w u : State}
    {r : Resource} {e : Entry} {payload : List Byte} (ho : owner (s.heard p) = (u.scan r).accepted payload)
    (first : u.firstEligible r e) (hw : KeepsAllBut w u roadBlocks) (hp : u.ports = (s.heard p).ports) :
    ∃ t, s.serve p k tag owner = t ∧ t.heldWhole e.conv r ∧ KeepsAllBut w t roadBlocks
      ∧ Answers s t p (s.port p).lastConvoy (k.code ||| 0x80) tag .ok payload := by
  obtain ⟨n, ps, event, answers⟩ := s.serve_notices p k tag owner h (fun _ => hl) (u.scan r) .ok payload ho hk
    (((u.scan_frame r).ports).trans hp)
  exact ⟨_, event, State.heldWhole_delivered (u.heldWhole_scan first) n ps,
    (hw.trans (u.scan_frame r).mono).delivered n ps, answers⟩

end

/-! ### Sections at rest (R71, R88) -/

namespace State

variable (s : State)

theorem modSec_congr {x : Sec} {f g : Section → Section} (h : f (s.sec x) = g (s.sec x)) :
    s.modSec x f = s.modSec x g := by
  rw [sec] at h
  rw [modSec, modSec, h]

theorem modSec_modSec (x : Sec) (f g : Section → Section) : (s.modSec x f).modSec x g = s.modSec x fun q => g (f q) := by
  simp [modSec]

theorem toRest_eq (x : Sec) : s.toRest x =
    s.modSec x fun q => { q with dyn := if s.map.isBay x = true ∧ 0 < q.stock then .parked else .free } := by
  refine s.modSec_congr ?_
  simp [restState]

/-- The bar flag changes the resource of no section. -/
theorem setBarFlag_resourceOf (x y : Sec) (b : Bool) : (s.setBarFlag x b).map.resourceOf y = s.map.resourceOf y := by
  have group : ((s.setBarFlag x b).map.sections.nth y).group = (s.map.sections.nth y).group := by
    by_cases hy : y = x
    · subst hy
      simp [setBarFlag, setMap, map]
    · simp [setBarFlag, setMap, map, hy]
  simp only [LayoutMap.resourceOf, group]

theorem onRoute_iff (x : Sec) : s.onRoute x = false ↔ ∀ c, s.formed c = true → x ∉ (s.road c).route := by
  simp [onRoute, allConvoys]

theorem barrable_iff (x : Sec) : s.barrable x = true ↔
    (s.sec x).dyn ∈ [SecState.free, .parked, .blocked] ∧ ∀ c, s.formed c = true → x ∉ (s.road c).route := by
  have resting : ((s.sec x).dyn.unoccupied || (s.sec x).dyn == .blocked) = true ↔
      (s.sec x).dyn ∈ [SecState.free, .parked, .blocked] := by cases (s.sec x).dyn <;> simp [SecState.unoccupied]
  rw [barrable, Bool.and_eq_true, resting, Bool.not_eq_true', onRoute_iff]

/-! ### The owner blocks (R91 to R94) -/

variable {body : List Byte} {x : Sec}

theorem onlySection_none (h : ∀ b, body = [b] → 47 < b.toNat) : onlySection body = none := by
  unfold onlySection
  split
  · exact secArg_eq_none _ (h _ rfl)
  · rfl

theorem barSection_some (h : onlySection body = some x) : s.barSection body =
    if s.barrable x then ((s.setBarFlag x true).modSec x fun q => { q with dyn := .barred }).accepted
    else s.refusal .badState := by simp [barSection, h]

theorem unbarSection_some (h : onlySection body = some x) : s.unbarSection body =
    if (s.sec x).dyn != .barred then s.refusal .badState
    else match s.map.singleCheck x with
      | some r => s.refusal .badArg (reasonBytes r)
      | none => (((s.setBarFlag x false).toRest x).scanFor x).accepted := by
  simp only [unbarSection, h] <;> rfl

theorem clearSection_some (h : onlySection body = some x) : s.clearSection body =
    if (s.sec x).dyn = .blocked then ((s.toRest x).scanFor x).accepted else s.refusal .badState := by
  simp [clearSection, h]

theorem setStock_some {n : Nat} (h : stockArg body = some (x, n)) (hb : s.map.isBay x = true) : s.setStock body =
    (s.putStock x (min n 8)).accepted [byte ((s.putStock x (min n 8)).sec x).stock] := by simp [setStock, h, hb]

/-- A stock that empties no PARKED bay sets the section. -/
theorem putStock_set (hb : s.map.isBay x = true) {n : Nat} (h : (s.sec x).dyn ≠ .parked ∨ n ≠ 0) : s.putStock x n =
    s.modSec x fun q => ⟨if q.dyn = .free ∧ n ≠ 0 then .parked else q.dyn, n, q.queue⟩ := by
  have kept (other : (s.sec x).dyn ≠ .free) : (s.modSec x fun q => { q with stock := n })
      = s.modSec x fun q => ⟨if q.dyn = .free ∧ n ≠ 0 then .parked else q.dyn, n, q.queue⟩ :=
    s.modSec_congr (by simp [other])
  unfold putStock
  simp only [sec_modSec_self]
  cases hd : (s.sec x).dyn with
  | free =>
    dsimp only
    rw [toRest_eq, modSec_modSec]
    refine s.modSec_congr ?_
    by_cases hn : n = 0
    · simp [hd, hn]
    · simp [hd, hn, hb, Nat.pos_of_ne_zero hn]
  | parked =>
    dsimp only
    rw [if_neg (h.resolve_left (by simp [hd]))]
    exact kept (by simp [hd])
  | held c => exact kept (by simp [hd])
  | clearing ms => exact kept (by simp [hd])
  | barred => exact kept (by simp [hd])
  | blocked => exact kept (by simp [hd])

/-- A PARKED bay without stock is FREE, and scanned. -/
theorem putStock_emptied (hd : (s.sec x).dyn = .parked) : s.putStock x 0 =
    (s.modSec x fun q => ⟨.free, 0, q.queue⟩).scan (s.map.resourceOf x) := by
  unfold putStock
  simp only [sec_modSec_self, hd, if_true, scanFor]
  rw [toRest_eq, modSec_modSec]
  simp

end State

/-- Settles O34: the owner block decides; a scan is the only effect that may raise a notice. -/
theorem barAndSetStockSetTheSection : Obligations.BarAndSetStockSetTheSection := by
  intro s p tag body hs hl
  refine ⟨fun none => ?_, fun x one => ?_, fun bad => ?_, fun x n one bay => ⟨fun stays => ?_, fun parked zero => ?_⟩⟩
  · exact congrArg Host.Outcome.next (s.serve_zeroRefused { code := 0x23, levelZero := true } tag _ hs hl rfl _ _
      (by simp [State.barSection, none]))
  · split
    · rename_i may
      have block := ((s.heard p).barSection_some one).trans (if_pos (((s.heard p).barrable_iff x).mpr may))
      exact congrArg Host.Outcome.next (s.serve_answered p { code := 0x23, levelZero := true } tag _ hs (fun _ => hl)
        (fun u => (u.setBarFlag x true).modSec x fun q => { q with dyn := .barred }) .ok [] block rfl
        (fun _ _ => rfl) hs.1 rfl rfl)
    · rename_i may
      have block := ((s.heard p).barSection_some one).trans (if_neg (mt ((s.heard p).barrable_iff x).mp may))
      exact congrArg Host.Outcome.next (s.serve_zeroRefused { code := 0x23, levelZero := true } tag _ hs hl rfl _ _ block)
  · have block : (s.heard p).setStock body = (s.heard p).refusal .badArg := by
      rcases bad with none | ⟨x, n, one, road⟩
      · simp [State.setStock, none]
      · have road' : (s.heard p).map.isBay x = false := road
        simp [State.setStock, one, road']
    exact congrArg Host.Outcome.next (s.serve_zeroRefused { code := 0x26, levelZero := true } tag _ hs hl rfl _ _ block)
  · have stays' : (s.sec x).dyn ≠ .parked ∨ min n 8 ≠ 0 := stays.imp id (by omega)
    have clamped (q : Section) : (if q.dyn = .free ∧ min n 8 ≠ 0 then SecState.parked else q.dyn)
        = if q.dyn = .free ∧ n ≠ 0 then .parked else q.dyn := by
      have : min n 8 ≠ 0 ↔ n ≠ 0 := by omega
      simp only [this]
    have block := (s.heard p).setStock_some one bay
    rw [(s.heard p).putStock_set bay stays', State.sec_modSec_self] at block
    simp only [clamped] at block
    exact congrArg Host.Outcome.next (s.serve_answered p { code := 0x26, levelZero := true } tag _ hs (fun _ => hl)
      (fun u => u.modSec x fun q => ⟨if q.dyn = .free ∧ n ≠ 0 then .parked else q.dyn, min n 8, q.queue⟩) .ok _ block rfl
      (fun _ _ => rfl) hs.1 rfl rfl)
  · subst zero
    have block := (s.heard p).setStock_some one bay
    rw [show min 0 8 = 0 from rfl, (s.heard p).putStock_emptied parked] at block
    refine ⟨fun none => ?_, fun e first => ?_⟩
    · have idle := State.scan_none ((s.heard p).modSec x fun q => ⟨.free, 0, q.queue⟩) (r := s.map.resourceOf x) none
      rw [show (s.heard p).map = s.map from rfl, idle, State.sec_modSec_self] at block
      exact congrArg Host.Outcome.next (s.serve_answered p { code := 0x26, levelZero := true } tag _ hs (fun _ => hl)
        (fun u => u.modSec x fun q => ⟨.free, 0, q.queue⟩) .ok _ block rfl (fun _ _ => rfl) hs.1 rfl rfl)
    · rw [(State.scan_scanned _ _).stock, State.sec_modSec_self] at block
      change (s.heard p).setStock body = ((State.modSec _ x _).scan (s.map.resourceOf x)).accepted _ at block
      have emptied : KeepsAllBut s ((s.heard p).modSec x fun q => ⟨.free, 0, q.queue⟩) roadBlocks :=
        (s.heard_frame p).mono.trans (State.modSec_frame _ x _).mono
      obtain ⟨t, event, held, frame, answers⟩ := s.serve_granted { code := 0x26, levelZero := true } tag
        (fun u => u.setStock body) hs hl rfl
        (u := (s.heard p).modSec x fun q => ⟨.free, 0, q.queue⟩) block first emptied rfl
      exact ⟨t, congrArg Host.Outcome.next event, held, frame, answers⟩

/-! ### Road that becomes available (R88, R92, R93) -/

namespace State

variable (s : State)

/-- Section `x` rests, its state by its stock. -/
def rested (x : Sec) : State :=
  s.modSec x fun q => { q with dyn := if s.map.isBay x = true ∧ 0 < q.stock then .parked else .free }

theorem unbarSection_clear {body : List Byte} {x : Sec} (h : onlySection body = some x) (hd : (s.sec x).dyn = .barred)
    (hc : s.map.singleCheck x = none) :
    s.unbarSection body = (((s.setBarFlag x false).rested x).scan (s.map.resourceOf x)).accepted := by
  have resource : ((s.setBarFlag x false).rested x).map.resourceOf x = s.map.resourceOf x :=
    s.setBarFlag_resourceOf x x false
  simp only [s.unbarSection_some h, hd, hc, bne_self_eq_false, Bool.false_eq_true, if_false, scanFor, toRest_eq]
  exact congrArg (fun r => (((s.setBarFlag x false).rested x).scan r).accepted) resource

theorem clearSection_blocked {body : List Byte} {x : Sec} (h : onlySection body = some x)
    (hd : (s.sec x).dyn = .blocked) : s.clearSection body = ((s.rested x).scan (s.map.resourceOf x)).accepted := by
  rw [s.clearSection_some h, if_pos hd, toRest_eq]
  rfl

theorem clearanceOver_eq (x : Sec) : s.clearanceOver x = (s.rested x).scan (s.map.resourceOf x) := by
  rw [clearanceOver, toRest_eq]
  rfl

theorem clearanceOver_frame (x : Sec) : KeepsAllBut s (s.clearanceOver x) reach :=
  (s.toRest_frame x).mono.trans (scan_frame _ _)

/-- An event whose effect ends in a scan that grants. -/
theorem event_granted {f : State → State} {u : State} {r : Resource} {e : Entry} (hf : f s.numbered = u.scan r)
    (first : u.firstEligible r e) (frame : ∀ t, KeepsAllBut t (f t) reach) :
    (s.event f).heldWhole e.conv r ∧ KeepsAllBut s (s.event f) roadBlocks ∧ KeepsPorts s (s.event f) := by
  refine ⟨?_, (s.event_frame f frame).mono, s.event_ports f frame (by decide)⟩
  obtain ⟨n, ps, event, -⟩ := s.event_spec f
  rw [event]
  exact heldWhole_delivered (hf ▸ u.heldWhole_scan first) n ps

end State

theorem reasonBytes_eq (n : Nat) (o : Option Sec) :
    reasonBytes (n, o) = [byte n, (match o with | some y => byte y.1 | none => 0xFF)] := by cases o <;> rfl

/-- Settles O33: the section rests, and a scan of its resource follows; the three events differ in what they ask first. -/
theorem roadThatBecomesAvailableIsScanned : Obligations.RoadThatBecomesAvailableIsScanned := by
  refine ⟨fun s p tag body hs hl bad => ?_, fun s x => ⟨fun p tag body hs hl one => ?_, fun off => ?_, fun ms hr hrun on => ?_⟩⟩
  · have none := State.onlySection_none bad
    exact ⟨congrArg Host.Outcome.next (s.serve_zeroRefused { code := 0x24, levelZero := true } tag _ hs hl rfl _ _
        (by simp [State.unbarSection, none])),
      congrArg Host.Outcome.next (s.serve_zeroRefused { code := 0x25, levelZero := true } tag _ hs hl rfl _ _
        (by simp [State.clearSection, none]))⟩
  · let u := s.heard p
    refine ⟨fun other => ?_, fun n o barred fails => ?_, fun barred clear => ⟨fun none => ?_, fun e first => ?_⟩,
      fun other => ?_, fun blocked => ⟨fun none => ?_, fun e first => ?_⟩⟩
    · have block := (u.unbarSection_some one).trans (if_pos (bne_iff_ne.mpr other))
      exact congrArg Host.Outcome.next (s.serve_zeroRefused { code := 0x24, levelZero := true } tag _ hs hl rfl _ _ block)
    · have block : u.unbarSection body = u.refusal .badArg (reasonBytes (n, o)) := by
        have here : (u.sec x).dyn = .barred := barred
        rw [u.unbarSection_some one, if_neg (by simp [here]), show u.map.singleCheck x = some (n, o) from fails]
      have refused := s.serve_zeroRefused { code := 0x24, levelZero := true } tag (fun u => u.unbarSection body) hs hl rfl _ _
        block
      rw [reasonBytes_eq] at refused
      exact congrArg Host.Outcome.next refused
    · have block := u.unbarSection_clear one barred clear
      have idle := State.scan_none ((u.setBarFlag x false).rested x) (r := u.map.resourceOf x) none
      rw [idle] at block
      exact congrArg Host.Outcome.next (s.serve_answered p { code := 0x24, levelZero := true } tag _ hs (fun _ => hl)
        (fun v => (v.setBarFlag x false).rested x) .ok [] block rfl (fun _ _ => rfl) hs.1 rfl rfl)
    · have frame : KeepsAllBut (s.setBarFlag x false) ((u.setBarFlag x false).rested x) roadBlocks := fun b hb => by
        cases b
        case interlock => exact absurd (by decide) hb
        case consolePorts => exact absurd (by decide) hb
        all_goals rfl
      obtain ⟨t, event, held, kept, answers⟩ := s.serve_granted { code := 0x24, levelZero := true } tag
        (fun u => u.unbarSection body) hs hl rfl (u := (u.setBarFlag x false).rested x) (r := u.map.resourceOf x) (u.unbarSection_clear one barred clear) first frame rfl
      exact ⟨t, congrArg Host.Outcome.next event, held, kept, answers⟩
    · have block := (u.clearSection_some one).trans (if_neg other)
      exact congrArg Host.Outcome.next (s.serve_zeroRefused { code := 0x25, levelZero := true } tag _ hs hl rfl _ _ block)
    · have block := u.clearSection_blocked one blocked
      have idle := State.scan_none (u.rested x) (r := u.map.resourceOf x) none
      rw [idle] at block
      exact congrArg Host.Outcome.next (s.serve_answered p { code := 0x25, levelZero := true } tag _ hs (fun _ => hl)
        (fun v => v.rested x) .ok [] block rfl (fun _ _ => rfl) hs.1 rfl rfl)
    · have frame : KeepsAllBut s (u.rested x) roadBlocks := (s.heard_frame p).mono.trans (State.modSec_frame _ x _).mono
      obtain ⟨t, event, held, kept, answers⟩ := s.serve_granted { code := 0x25, levelZero := true } tag
        (fun u => u.clearSection body) hs hl rfl (u := u.rested x) (r := u.map.resourceOf x) (u.clearSection_blocked one blocked) first frame rfl
      exact ⟨t, congrArg Host.Outcome.next event, held, kept, answers⟩
  · have stopped : s.clearanceLeft x = none := by
      unfold State.clearanceLeft
      split
      · rename_i ms clearing
        exact absurd clearing (off ms)
      all_goals rfl
    change Host.Outcome.next (s.atExpiry (s.clearanceLeft x) _) = _
    rw [stopped]
    rfl
  · have runs : s.clearanceLeft x = some ms := by simp [State.clearanceLeft, on, hrun]
    let v := (s.advance ms).numbered
    have map : v.map.resourceOf x = s.map.resourceOf x := congrArg (fun m => LayoutMap.resourceOf m x) (s.advance_map ms)
    have expires : exec (.clearanceTimerExpiry x) s = .next ((s.advance ms).event fun t => t.clearanceOver x) := by
      change Host.Outcome.next (s.atExpiry (s.clearanceLeft x) _) = _
      rw [runs]
      rfl
    have ends : v.clearanceOver x = (v.rested x).scan (s.map.resourceOf x) := by rw [State.clearanceOver_eq, map]
    refine ⟨fun none => ?_, fun e first => ⟨_, expires, ?_⟩⟩
    · have idle := State.scan_none (v.rested x) (r := s.map.resourceOf x) none
      have quiet : (v.rested x).raised = [] := (s.advance_raised ms).trans hr
      rw [expires, (s.advance ms).event_eq (f := fun t => t.clearanceOver x) (ends.trans idle) quiet, ← s.advance_eventNo ms]
      rfl
    · exact (s.advance ms).event_granted (u := v.rested x) ends first fun t => t.clearanceOver_frame x

end Sys2Proof.Machine
end

section
/-!
The end of a fork's settling: O47.
-/

namespace Sys2Proof.Machine

open Sys2Proof

set_option Elab.async false

namespace State

variable (s : State)

/-! ### What the passing of time leaves -/

theorem advance_road (ms : Nat) (c : Conv) (h : ms ≠ 0) :
    (s.advance ms).road c = { s.road c with watch := (s.road c).watch.elapse ms } := by
  simp only [advance, if_neg h, road]
  exact tab_nth_map _ _ _

/-- Time moves no head. -/
theorem advance_head (ms : Nat) (c : Conv) : ((s.advance ms).track c).head = (s.track c).head := by
  unfold advance
  split
  · rfl
  · simp [track]

/-- A watch that settles settles on as time passes. -/
theorem advance_settling {ms left m : Nat} {c : Conv} (h : (s.road c).watch = .settling m left) :
    ∃ left', ((s.advance ms).road c).watch = .settling m left' := by
  by_cases hms : ms = 0
  · exact ⟨left, by rw [hms, advance, if_pos rfl, h]⟩
  · exact ⟨left - ms, by rw [s.advance_road ms c hms, h]; rfl⟩

/-! ### The report, at the end of an event -/

/-- A target is applied in an event that has not touched the truck before. -/
theorem applyTarget_targeted {s t : State} {a : Addr} (hs : t.speed a = s.speed a) (hr : t.radio a = s.radio a)
    (he : t.eventNo = s.eventNo + 1) (n : Nat) : Targeted s (t.applyTarget a n) a n := by
  unfold Targeted applyTarget
  by_cases pos : 0 < n
  · rw [if_pos pos, if_pos pos]
    refine ⟨?_, hr⟩
    rw [← hs]
    simp
  · rw [if_neg pos, if_neg pos, hs]
    by_cases moves : 0 < (s.speed a).set ∨ 0 < (s.speed a).cmd
    · rw [if_pos moves, if_pos moves, HardStopped, (t.hardStop_spec a).1.1, (t.hardStop_spec a).1.2, hr, he]
      exact ⟨rfl, rfl⟩
    · rw [if_neg moves, if_neg moves]
      exact ⟨hs, hr⟩

theorem tellEffective_radio {c : Conv} (h : s.formed c = true) (a : Addr) :
    (s.tellEffective c).radio a = (s.retarget c (s.convoy c).state).radio a := by
  unfold tellEffective
  split
  · rw [restart_eq, ((s.resumed c).restartUnits_frame c).radio, resumed_radio]
  · rw [s.recomputeTarget_formed h]

/-- The report applies its target to the leader of a formed convoy. -/
theorem tellEffective_targeted {s t : State} {c : Conv} {a : Addr} (hs : t.speed a = s.speed a)
    (hr : t.radio a = s.radio a) (he : t.eventNo = s.eventNo + 1) (formed : t.formed c = true)
    (nodup : (truckAddrs (t.members c)).Nodup) (leader : t.leader? c = some a) :
    Targeted s (t.tellEffective c) a (t.leaderTarget c (t.convoy c).state) := by
  have applied := applyTarget_targeted hs hr he (t.leaderTarget c (t.convoy c).state)
  unfold Targeted HardStopped at applied ⊢
  rwa [(t.tellEffective_told c).leader formed nodup a leader, t.tellEffective_radio formed,
    t.retarget_some leader]

/-- The watch of `c` at route index `m` is EFFECTIVE. -/
def effectiveAt (c : Conv) (m : Nat) : State := s.modRoad c fun w => { w with watch := .effective m }

theorem settled_eq {c : Conv} {m left : Nat} (h : (s.road c).watch = .settling m left) : s.settled c =
    if m = (s.track c).head + 1 then (s.effectiveAt c m).tellEffective c else s.effectiveAt c m := by
  unfold settled
  rw [h]
  rfl

end State

/-- Settles O47: the watch is EFFECTIVE, and the report of it is the whole of what follows (`tellEffective_told`). -/
theorem settledForksBecomeEffective : Obligations.SettledForksBecomeEffective := by
  intro s c
  refine ⟨fun none => ?_, fun m ms hr hrun settling => ?_⟩
  · change Host.Outcome.next (s.atExpiry (s.settleLeft c) _) = _
    rw [none]
    rfl
  have left : s.settleLeft c = some ms := by simp [State.settleLeft, settling, hrun]
  have expires : exec (.settleTimerExpiry c) s = .next ((s.advance ms).event fun t => t.settled c) := by
    change Host.Outcome.next (s.atExpiry (s.settleLeft c) _) = _
    rw [left]
    rfl
  obtain ⟨_, watch⟩ := s.advance_settling (ms := ms) settling
  have effect := (s.advance ms).numbered.settled_eq watch
  rw [show ((s.advance ms).numbered.track c).head = (s.track c).head from s.advance_head ms c] at effect
  have quiet : ((s.advance ms).numbered.effectiveAt c m).raised = [] := (s.advance_raised ms).trans hr
  refine ⟨fun other => ?_, fun next => ?_⟩
  · rw [if_neg other] at effect
    rw [expires, (s.advance ms).event_eq (f := fun t => t.settled c) effect quiet, ← s.advance_eventNo ms]
    rfl
  · rw [if_pos next] at effect
    let w := (s.advance ms).numbered.effectiveAt c m
    have convoy : w.convoy c = s.convoy c := congrArg (fun t => t.convoys.nth c) (s.advance_cvt ms)
    have members : w.members c = s.members c := congrArg Convoy.members convoy
    have told := w.tellEffective_told c
    have frame := w.tellEffective_frame c
    have target (st : ConvoyState) : (w.tellEffective c).looked.leaderTarget c st = w.leaderTarget c st :=
      w.tellEffective_leaderTarget c st
    refine ⟨(w.tellEffective c).looked, ?_, frame.sil, ?_, fun a leader formed nodup => ?_, told.others, ?_, told.trucks,
      congrArg (fun ps : PerPort PortState => ps.map PortState.look) frame.ports, fun b hb => ?_⟩
    · rw [expires, (s.advance ms).event_eq (f := fun t => t.settled c) effect ((w.tellEffective_raised c).trans quiet)]
    · rw [target, ← convoy]
      exact told.convoy
    · have state : w.formed c = s.formed c := by rw [State.formed, State.formed, convoy]
      have first : w.leader? c = s.leader? c := by rw [State.leader?, State.leader?, members]
      rw [target, ← convoy]
      exact State.tellEffective_targeted (t := w) rfl rfl rfl (state.trans formed) (by rwa [members]) (first.trans leader)
    · rw [← members]
      exact told.otherTrucks
    · have kept := frame b
      cases b
      case consolePorts => exact absurd (by decide) hb
      case convoyTable => exact absurd (by decide) hb
      case tracker => exact absurd (by decide) hb
      case governor => exact absurd (by decide) hb
      case dispatcher => exact absurd (by decide) hb
      all_goals exact kept (by decide)

end Sys2Proof.Machine
end

section
/-!
What a request for road reads (`SameRoads`), the delivery of a single notice, and RETRY: O31.
-/

namespace Sys2Proof.Machine

open Sys2Proof

set_option Elab.async false

/-! ### What requests and grants read -/

/-- The two states agree in all that requests for road and grants read: watches, units, speeds and ports may differ. -/
structure SameRoads (s t : State) : Prop where
  map : t.map = s.map
  hls : t.hls = s.hls
  convoy : ∀ d, t.convoy d = s.convoy d
  head : ∀ d, (t.track d).head = (s.track d).head
  sec : ∀ x, t.sec x = s.sec x
  grp : ∀ g, t.grp g = s.grp g
  req : ∀ d, (t.road d).req = (s.road d).req
  route : ∀ d, (t.road d).route = (s.road d).route

theorem KeepsAllBut.sameRoads {s t : State} {bs : List Block} (h : KeepsAllBut s t bs)
    (hb : Block.mapUnit ∉ bs ∧ Block.haltSupervisor ∉ bs ∧ Block.convoyTable ∉ bs ∧ Block.tracker ∉ bs
      ∧ Block.interlock ∉ bs := by decide) : SameRoads s t := by
  obtain ⟨map, halt, table, tracks, road⟩ := hb
  exact ⟨h.map map, h.hls halt, fun d => h.convoy d table, fun d => by rw [h.track d tracks], fun x => h.sec x road,
    fun g => h.grp g road, fun d => by rw [h.road d road], fun d => by rw [h.road d road]⟩

section
variable {s t : State} (h : SameRoads s t)
include h

theorem SameRoads.queue (y : Resource) : t.queue y = s.queue y := by
  cases y with
  | sec x => exact congrArg Section.queue (h.sec x)
  | grp g => exact congrArg Group.queue (h.grp g)

theorem SameRoads.holds (c : Conv) (x : Sec) : t.holds c x = s.holds c x := State.holds_congr (by rw [h.sec]) c

theorem SameRoads.secHolder (x : Sec) : t.secHolder x = s.secHolder x := State.secHolder_congr (by rw [h.sec])

theorem SameRoads.firstUnheld (c : Conv) (i : Nat) (l : List Sec) : t.firstUnheld c i l = s.firstUnheld c i l := by
  induction l generalizing i with
  | nil => rfl
  | cons x l ih => simp only [State.firstUnheld, h.holds, ih]

theorem SameRoads.nextIndex (c : Conv) : t.nextIndex c = s.nextIndex c := by
  rw [State.nextIndex, h.firstUnheld, h.head, h.route, State.nextIndex]

theorem SameRoads.wanted (c : Conv) : t.wanted c = s.wanted c := by
  simp only [State.wanted, h.convoy, h.req, h.nextIndex, h.head]

theorem SameRoads.holder (r : Resource) : t.holder r = s.holder r := by
  cases r with
  | sec x => exact h.secHolder x
  | grp g => exact congrArg Group.holder (h.grp g)

theorem SameRoads.chainCloses (c : Conv) (fuel : Nat) (r : Resource) : t.chainCloses c fuel r = s.chainCloses c fuel r := by
  induction fuel generalizing r with
  | zero => rfl
  | succ n ih =>
    rw [State.chainCloses, State.chainCloses, h.holder]
    cases s.holder r with
    | none => rfl
    | some d => simp only [h.req, ih]

theorem SameRoads.entryLevel (c : Conv) : t.entryLevel c = s.entryLevel c := by
  have level (p : Port) : t.level p = s.level p := congrArg (fun m : LayoutMap => m.settings.levels.nth p) h.map
  simp only [State.entryLevel, h.convoy, level]

theorem SameRoads.eligible (r : Resource) (e : Entry) : t.eligible r e = s.eligible r e := by
  cases r with
  | sec x => simp only [State.eligible, State.endsHere, h.sec, h.route]
  | grp g => simp only [State.eligible, State.groupFree, h.sec, h.grp, h.map]

theorem SameRoads.firstEligible (r : Resource) (e : Entry) : t.firstEligible r e ↔ s.firstEligible r e := by
  simp only [State.firstEligible, h.hls, h.queue, h.eligible]

theorem SameRoads.modQueue (r : Resource) (f : List Entry → List Entry) : SameRoads (s.modQueue r f) (t.modQueue r f) where
  map := ((t.modQueue_frame r f).map).trans (h.map.trans ((s.modQueue_frame r f).map).symm)
  hls := ((t.modQueue_frame r f).hls).trans (h.hls.trans ((s.modQueue_frame r f).hls).symm)
  convoy d := ((t.modQueue_frame r f).convoy d).trans ((h.convoy d).trans ((s.modQueue_frame r f).convoy d).symm)
  head d := by rw [(t.modQueue_frame r f).track, h.head, (s.modQueue_frame r f).track]
  sec x := by rw [State.sec_modQueue, h.sec, State.sec_modQueue]
  grp g := by rw [State.grp_modQueue, h.grp, State.grp_modQueue]
  req d := by rw [State.road_modQueue, h.req, State.road_modQueue]
  route d := by rw [State.road_modQueue, h.route, State.road_modQueue]

theorem SameRoads.setReq (c : Conv) (q : ReqState) :
    SameRoads (s.modRoad c fun w => { w with req := q }) (t.modRoad c fun w => { w with req := q }) :=
  ⟨h.map, h.hls, h.convoy, h.head, h.sec, h.grp, fun d => by simp only [State.road_modRoad]; split <;> simp [h.req],
    fun d => by simp only [State.road_modRoad]; split <;> simp [h.route]⟩

theorem SameRoads.join (c : Conv) (k : Nat) (x : Sec) (r : Resource) : SameRoads (s.join c k x r) (t.join c k x r) := by
  have entry : (⟨c, x, k, t.entryLevel c⟩ : Entry) = ⟨c, x, k, s.entryLevel c⟩ := by rw [h.entryLevel]
  unfold State.join
  rw [entry]
  exact (h.modQueue r _).setReq c _

/-- A request leads to the same where it is made in states of the same roads. -/
theorem SameRoads.requested {u : State} {c : Conv} (k : Requested t u c) : Requested s u c := by
  obtain ⟨none, some⟩ := k
  refine ⟨fun w => ?_, fun k x w => ?_⟩
  · simpa only [h.req, h.queue] using none ((h.wanted c).trans w)
  · simpa only [h.map, h.chainCloses, (h.join c k x _).firstEligible, h.queue, h.entryLevel] using
      some k x ((h.wanted c).trans w)

end

/-- What a request leads to is read in the Interlock. -/
theorem Requested.of_sil {u s t : State} {c : Conv} (h : Requested u s c) (hs : t.sil = s.sil) (hm : t.map = s.map) :
    Requested u t c := by
  have road : t.road c = s.road c := by rw [State.road, hs, State.road]
  have held (d : Conv) (r : Resource) (k : s.heldWhole d r) : t.heldWhole d r :=
    State.heldWhole_mono hm (fun x hx => by rwa [State.secHolder, State.sec, hs]) (fun g hg => by rwa [State.grp, hs]) k
  obtain ⟨none, some⟩ := h
  refine ⟨fun w => ?_, fun k x w => ?_⟩
  · simpa only [road, State.queue_of_sil hs] using none w
  · obtain ⟨closed, opens⟩ := some k x w
    refine ⟨fun hc => ?_, fun hc => ⟨fun idle => ?_, fun e first => held _ _ ((opens hc).2 e first)⟩⟩
    · simpa only [road, State.queue_of_sil hs] using closed hc
    · simpa only [road, State.queue_of_sil hs] using (opens hc).1 idle

namespace State

variable (s : State)

/-! ### One notice (R156, R158) -/

/-- Only one element of the list has an effect. -/
theorem forEach_single {α : Type} {f : State → α → State} {a : α} {l : List α} (ha : a ∈ l) (hn : l.Nodup)
    (h : ∀ t, ∀ b ∈ l, b ≠ a → f t b = t) : s.forEach l f = f s a := by
  obtain ⟨front, back, rfl⟩ := List.append_of_mem ha
  have apart := List.nodup_middle.mp hn
  obtain ⟨fresh, -⟩ := List.nodup_cons.mp apart
  have idle (t : State) (m : List α) (hm : ∀ b ∈ m, b ∈ front ++ back) : t.forEach m f = t :=
    forEach_id t m f fun b hb => h t b (by
      rcases List.mem_append.mp (hm b hb) with k | k
      · exact List.mem_append_left _ k
      · exact List.mem_append_right _ (List.mem_cons_of_mem _ k)) fun e => fresh (e ▸ hm b hb)
  rw [forEach_append, idle s front (fun b => List.mem_append_left _), forEach_cons,
    idle _ back fun b => List.mem_append_right _]

/-- The one notice of an event joins its recipients' queues. -/
theorem deliver_notice {r : Raised} (hs : s.raised = [r]) : s.deliver = State.deliverOne { s with raised := [] } r := by
  have listed : r.notice.conv ∈ (List.finRange 12).map some ++ [none] := by
    cases r.notice.conv <;> simp
  have distinct : ((List.finRange 12).map some ++ [none]).Nodup := by decide
  unfold deliver
  rw [hs]
  refine (forEach_single _ listed distinct fun t b _ hb => ?_).trans ?_
  · have none : raisedFor [r] b = [] := by simp [raisedFor, hb.symm]
    rw [none]
    rfl
  · have one : raisedFor [r] r.notice.conv = [r] := by simp [raisedFor]
    rw [one]
    rfl

theorem recipients_nodup (who : Audience) : (s.recipients who).Nodup := by
  unfold recipients
  split
  · exact s.attachedPorts_nodup
  · exact s.attachedPorts_nodup.filter _
  · split
    · exact List.nodup_singleton _
    · exact s.attachedPorts_nodup.filter _
  · exact List.nodup_singleton _

theorem recipients_sees (p : Port) (last : Option Conv) (who : Audience) :
    (s.sees p last).recipients who = s.recipients who := by
  have attached (q : Port) : ((s.sees p last).port q).attached = (s.port q).attached := by
    by_cases hq : q = p
    · subst hq
      simp [sees, port]
    · simp [sees, port, hq]
  have ports : (s.sees p last).attachedPorts = s.attachedPorts := by simp only [attachedPorts, attached]
  unfold recipients levelZeroPorts
  rw [ports]
  rfl

/-- An owner block that raises one notice and answers: each port gets the notice, if it is among the recipients, and the
port of the request its answer. -/
theorem sees_told (p : Port) (last : Option Conv) (k : Kind) (tag : Byte) (n : Notice) (who : Audience) (code : ReplyCode)
    (payload : List Byte) (hr : s.raised = []) (hk : k.haltPayload = false) : ∃ t,
    (Result.send ⟨(s.sees p last).raise n who, some ⟨code, payload⟩⟩ p k tag).deliver.looked = t
      ∧ KeepsAllBut s t [.consolePorts]
      ∧ ∀ q, t.port q = (s.told who n q (if q = p then (s.port p).after last (k.code ||| 0x80) tag code payload
          else s.port q)).look := by
  let u := (s.sees p last).raise n who
  have raised : (u.reply p k.code tag ⟨code, payload⟩).raised = [⟨n, s.recipients who⟩] := by
    change s.raised ++ [⟨n, (s.sees p last).recipients who⟩] = _
    rw [hr, s.recipients_sees p last who]
    rfl
  have sent : Result.send ⟨u, some ⟨code, payload⟩⟩ p k tag = u.reply p k.code tag ⟨code, payload⟩ := by
    simp [Result.send, Kind.tail, hk]
  refine ⟨_, rfl, ?_, fun q => ?_⟩
  · obtain ⟨m, ps, event, -⟩ := s.sees_notices p last k tag (u := u) rfl code payload hk
    rw [event]
    exact (raise_frame (s.sees p last) n who).seen m ps
  · rw [sent, port_looked, deliver_notice _ raised, deliverOne_port _ _ (s.recipients_nodup who), told]
    have answered := s.sees_reply_port p last k tag (u := u) rfl code payload q
    exact congrArg PortState.look (by rw [← answered]; rfl)

end State

/-- A convoy request accepted by an effect that raises no notice and reads no port. -/
theorem State.sees_convoyQuiet (s : State) (p : Port) (last : Option Conv) (k : Kind) (tag : Byte) (c : Conv)
    (f : State → State) (hf : ∀ n ps, f { s with eventNo := n, ports := ps } = { f s with eventNo := n, ports := ps })
    (hr : (f s).raised = []) (he : (f s).eventNo = s.eventNo) (hp : (f s).ports = s.ports) (hk : k.haltPayload = false) :
    (((f (s.sees p last)).convoyOk c).send p k tag).deliver.looked
      = (f s).replied p last (k.code ||| 0x80) tag .ok ((f s).shortPayload c) := by
  have payload : (f (s.sees p last)).shortConvoy c = (f s).shortPayload c := by
    rw [show f (s.sees p last) = _ from hf _ _]
    rfl
  rw [State.convoyOk, payload]
  exact s.sees_answered p last k tag .ok _ f hf hr he hp hk

namespace State

variable (s : State)

/-! ### RETRY (R79) -/

/-- The request of convoy `c` is IDLE. -/
def idled (c : Conv) : State := s.modRoad c fun w => { w with req := .idle }

theorem retry_refused {c : Conv} (h : (s.road c).req = .refused) : s.retry c = ((s.idled c).request c).convoyOk c := by
  rw [retry, if_pos h, clearRefusal, if_pos h]
  rfl

/-- A place in a queue is taken whatever the ports hold. -/
theorem join_ports (c : Conv) (k : Nat) (x : Sec) (r : Resource) (n : Nat) (ps : PerPort PortState) :
    State.join { s with eventNo := n, ports := ps } c k x r = { s.join c k x r with eventNo := n, ports := ps } := by
  cases r <;> rfl

theorem join_quiet (c : Conv) (k : Nat) (x : Sec) (r : Resource) : (s.join c k x r).raised = s.raised
    ∧ (s.join c k x r).eventNo = s.eventNo ∧ (s.join c k x r).ports = s.ports ∧ (s.join c k x r).cvt = s.cvt := by
  cases r <;> exact ⟨rfl, rfl, rfl, rfl⟩

/-- A refused convoy that is refused again is noticed, and that is all. -/
theorem refuse_idled {c : Conv} (h : (s.road c).req = .refused) (x : Sec) (r : Resource) : (s.idled c).refuse c x r =
    s.raise ⟨.deadlock, some c, some x, none, none, (s.holder r).elim 0 convoyNumber⟩ (.ownerOf c) := by
  have again : (s.idled c).modRoad c (fun w => { w with req := .refused }) = s := by
    have twice : (s.idled c).modRoad c (fun w => { w with req := .refused })
        = s.modRoad c fun w => { w with req := .refused } := by simp [idled, modRoad]
    exact twice.trans (s.modRoad_same (by rw [← h]))
  unfold refuse
  rw [again]
  rfl

end State

/-- Settles O31: RETRY is the request of R77 in the state without the refusal. -/
theorem retryRenewsTheRequest : Obligations.RetryRenewsTheRequest := by
  rintro s p tag b c ⟨hs, hn, ho⟩
  have mine := State.notOwner_of_mayCommand ho
  let last := s.lastAfter p b c
  have reaches : exec (.retry p tag [b]) s
      = .next ((((s.sees p last).retry c).send p { code := 0x22 } tag).deliver.looked) :=
    congrArg Host.Outcome.next (State.serve_convoy (k := { code := 0x22 }) tag []
      (fun s c rest => s.bare rest fun s => s.retry c) hs hn rfl mine)
  refine ⟨fun other => ?_, fun refused => ?_⟩
  · have block : (s.sees p last).retry c = (s.sees p last).refusal .badState := if_neg other
    rw [reaches, block]
    exact congrArg Host.Outcome.next (s.sees_refused p last { code := 0x22 } tag .badState [] hs.1 rfl)
  rw [(s.sees p last).retry_refused refused] at reaches
  let u := s.idled c
  have same : SameRoads u ((s.sees p last).idled c) := (s.sees_frame p last).sameRoads.setReq c .idle
  refine ⟨fun none => ?_, fun k x wants => ?_⟩
  · rw [reaches, State.request_none _ ((same.wanted c).trans none)]
    exact congrArg Host.Outcome.next (s.sees_convoyQuiet p last { code := 0x22 } tag c (fun v => v.idled c)
      (fun _ _ => rfl) hs.1 rfl rfl rfl)
  let r := s.map.resourceOf x
  have wants' : ((s.sees p last).idled c).wanted c = some (k, x) := (same.wanted c).trans wants
  have joined (opens : u.chainCloses c chainLimit r = false) :
      ((s.sees p last).idled c).request c = (((s.sees p last).idled c).join c k x r).scan r :=
    State.request_joined _ wants' ((same.chainCloses c _ r).trans opens)
  have alike := same.join c k x r
  refine ⟨fun closes => ?_, fun opens none => ?_, fun opens e first => ?_⟩
  · have refuses : ((s.sees p last).idled c).request c = ((s.sees p last).idled c).refuse c x r :=
      State.request_refused _ wants' ((same.chainCloses c _ r).trans closes)
    rw [reaches, refuses, (s.sees p last).refuse_idled refused]
    obtain ⟨t, event, frame, ports⟩ := s.sees_told p last { code := 0x22 } tag
      ⟨.deadlock, some c, some x, none, none, (s.holder r).elim 0 convoyNumber⟩ (.ownerOf c) .ok (s.shortPayload c) hs.1 rfl
    refine ⟨t, congrArg Host.Outcome.next (Eq.trans ?_ event), frame, ports⟩
    have holder : (s.sees p last).holder r = s.holder r := (s.sees_frame p last).sameRoads.holder r
    rw [holder]
    rfl
  · rw [reaches, joined opens, State.scan_none _ fun e => mt (alike.firstEligible r e).mp (none e)]
    obtain ⟨raised, number, ports, table⟩ := State.join_quiet u c k x r
    have event := s.sees_convoyQuiet p last { code := 0x22 } tag c (fun v => (v.idled c).join c k x r)
      (fun n ps => (s.idled c).join_ports c k x r n ps) (raised.trans hs.1) number ports rfl
    have payload : (u.join c k x r).shortPayload c = s.shortPayload c := by
      rw [State.shortPayload, State.convoy, table]
      rfl
    rw [payload] at event
    exact congrArg Host.Outcome.next event
  · rw [reaches, joined opens]
    let v := ((s.sees p last).idled c).join c k x r
    have frame : KeepsAllBut (s.sees p last) (v.scan r) State.reach :=
      (State.modRoad_frame _ c _).mono.trans ((State.join_frame _ c k x r).mono.trans (v.scan_frame r))
    obtain ⟨n, ps, t, event, ht, answers⟩ := s.sees_convoyOk p last { code := 0x22 } tag c frame.ports rfl
    have held := State.heldWhole_delivered (v.heldWhole_scan ((alike.firstEligible r e).mpr first)) n ps
    exact ⟨t, congrArg Host.Outcome.next event, ht ▸ held, ht ▸ (frame.seen n ps).mono, answers⟩

end Sys2Proof.Machine
end

section
/-!
START: O29. Before it the branch bits of a whole convoy (R113), and the units of a ROLLING convoy.
-/

namespace Sys2Proof.Machine

open Sys2Proof

set_option Elab.async false

namespace State

variable (s : State)

/-! ### Branch bits (R113) -/

section
variable (c : Conv)

theorem updateBranch_branch (a b : Addr) (j : Nat) : ((s.updateBranch c a j).radio b).branch =
    if b = a then (s.branchFor c j).getD (s.radio b).branch else (s.radio b).branch := by
  unfold updateBranch
  cases s.branchFor c j with
  | none => simp
  | some bit =>
    dsimp only
    by_cases same : (s.radio a).branch = bit
    · rw [if_pos same]
      split
      · rename_i hb
        rw [hb, same]
        rfl
      · rfl
    · rw [if_neg same, (markBranch_radio _ a b).1]
      by_cases hb : b = a
      · subst hb
        simp
      · simp [hb]

theorem updateBranches_branch (l : List Unit) (hl : (l.map Unit.truck).Nodup) (b : Addr) :
    ((s.forEach l fun s w => s.updateBranch c w.truck ((s.track c).position w.first)).radio b).branch =
      match l.find? fun w => w.truck == b with
      | some w => (s.branchFor c ((s.track c).position w.first)).getD (s.radio b).branch
      | none => (s.radio b).branch := by
  induction l generalizing s with
  | nil => rfl
  | cons w l ih =>
    obtain ⟨fresh, nodup⟩ := List.nodup_cons.mp hl
    let j := (s.track c).position w.first
    have frame := s.updateBranch_frame c w.truck j
    rw [forEach_cons, ih (s.updateBranch c w.truck j) nodup, updateBranch_branch]
    simp only [branchFor_congr (c := c) frame.map (by rw [frame.road]), frame.track]
    by_cases hb : b = w.truck
    · have none : l.find? (fun u => u.truck == b) = none := by
        refine List.find?_eq_none.mpr fun u hu => ?_
        have other : u.truck ≠ b := fun e => fresh (List.mem_map.mpr ⟨u, hu, e.trans hb⟩)
        simpa using other
      rw [none, List.find?_cons_of_pos (by simp [hb]), if_pos hb]
    · rw [List.find?_cons_of_neg (by simpa using Ne.symm hb), if_neg hb]

theorem updateAllBranches_branch (hc : (truckAddrs (s.members c)).Nodup) {w : Unit} (hw : w ∈ s.unitsFor c) :
    ((s.updateAllBranches c).radio w.truck).branch
      = (s.branchFor c ((s.track c).position w.first)).getD (s.radio w.truck).branch := by
  have trucks : ((s.unitsFor c).map Unit.truck).Nodup := by
    rw [unitsFor, unitsOf, unitsFrom_trucks]
    exact hc
  have found : (s.unitsFor c).find? (fun u => u.truck == w.truck) = some w := by
    obtain ⟨u, hu⟩ := Option.isSome_iff_exists.mp
      (List.find?_isSome.mpr ⟨w, hw, beq_self_eq_true w.truck⟩ : ((s.unitsFor c).find? fun u => u.truck == w.truck).isSome)
    rw [hu, List.inj_on_of_nodup_map trucks (List.mem_of_find?_eq_some hu) hw (by simpa using List.find?_some hu)]
  unfold updateAllBranches
  rw [updateBranches_branch s c _ trucks, found]

theorem updateBranch_raised (a : Addr) (j : Nat) : (s.updateBranch c a j).raised = s.raised := by
  unfold updateBranch
  split
  · rfl
  · split
    · rfl
    · exact markBranch_raised _ _

theorem evalWatch_sameRoads : SameRoads s (s.evalWatch c) where
  map := (s.evalWatch_frame c).map
  hls := (s.evalWatch_frame c).hls
  convoy := (s.evalWatch_frame c).convoy
  head d := by rw [(s.evalWatch_frame c).track]
  sec := s.sec_evalWatch c
  grp := s.grp_evalWatch c
  req d := by rw [road_evalWatch]; split <;> simp [*]
  route d := by rw [road_evalWatch]; split <;> simp [*]

/-! ### The units of a ROLLING convoy (R109) -/

/-- In ROLLING the restart procedure sets run states alone: no unit starts behind a DOWN one. -/
theorem restartUnits_rolling (h : (s.convoy c).state = .rolling) :
    s.restartUnits c = s.forEach (s.followers c) fun s u => s.resetUnit c u := by
  have same := (s.resetUnits_spec (.inl h) _ (s.followers_nodup c)).1
  have rolls (t : State) (ht : (t.convoy c).state = .rolling) (u : Nat) : t.runInUnit c u = t :=
    t.runInUnit_stays fun ⟨_, behind⟩ => by simp [aheadDown, ht, ConvoyState.runsIn] at behind
  unfold restartUnits
  exact forEach_id _ _ _ fun u _ => rolls _ (by rw [same.convoy, h]) u

theorem unitState_restartUnits_rolling (h : (s.convoy c).state = .rolling) {u : Nat} (one : 1 ≤ u)
    (count : u < unitCount (s.members c)) : (s.restartUnits c).unitState? c u = s.unitReset c .rolling u := by
  rw [s.restartUnits_rolling c h, (s.resetUnits_spec (.inl h) _ (s.followers_nodup c)).2,
    if_pos ((s.mem_followers c u).mpr ⟨one, count⟩), h]

theorem speed_restartUnits_rolling (h : (s.convoy c).state = .rolling) (a : Addr) :
    (s.restartUnits c).speed a = s.speed a := by
  rw [s.restartUnits_rolling c h]
  exact s.resetUnits_speed c _ a

/-! ### START (R76) -/

/-- START up to the request for road: ROLLING, the branch bits, the fork watch. -/
def started : State := ((s.setState c .rolling).updateAllBranches c).evalWatch c

theorem startConvoy_eq : s.startConvoy c = (((s.started c).request c).recomputeTarget c).restartUnits c := rfl

theorem started_frame : KeepsAllBut s (s.started c) [.convoyTable, .interlock, .dispatcher] :=
  (s.setState_frame c .rolling).mono.trans ((updateAllBranches_frame _ c).mono.trans (evalWatch_frame _ c).mono)

theorem started_cvt : (s.started c).cvt = (s.setState c .rolling).cvt :=
  (evalWatch_frame _ c).cvt.trans (updateAllBranches_frame (s.setState c .rolling) c).cvt

theorem started_convoy : (s.started c).convoy c = { s.convoy c with state := .rolling } := by
  rw [convoy, started_cvt, ← convoy, setState, convoy_modConvoy, if_pos rfl]

theorem started_sameRoads : SameRoads (s.setState c .rolling) (s.started c) where
  map := (started_frame s c).map
  hls := (started_frame s c).hls
  convoy d := by rw [convoy, started_cvt, ← convoy]
  head d := by rw [(started_frame s c).track]; rfl
  sec x := (sec_evalWatch _ c x).trans ((updateAllBranches_frame _ c).sec x)
  grp g := (grp_evalWatch _ c g).trans ((updateAllBranches_frame _ c).grp g)
  req d := ((evalWatch_sameRoads _ c).req d).trans (by rw [(updateAllBranches_frame _ c).road])
  route d := ((evalWatch_sameRoads _ c).route d).trans (by rw [(updateAllBranches_frame _ c).road])

/-- What START makes of a convoy. -/
structure Started (s t : State) (c : Conv) : Prop where
  convoy : t.convoy c = { s.convoy c with state := .rolling }
  route : (t.road c).route = (s.road c).route
  requested : Requested (s.setState c .rolling) t c
  track : t.track c = { s.track c with units := (t.track c).units }
  units : ∀ u, 1 ≤ u → u < unitCount (s.members c) → t.unitState? c u = s.unitReset c .rolling u
  leader : ∀ a, s.leader? c = some a → (t.speed a).set = t.leaderTarget c .rolling
  branches : (truckAddrs (s.members c)).Nodup → ∀ w ∈ s.unitsFor c,
    (t.radio w.truck).branch = (s.branchFor c ((s.track c).position w.first)).getD (s.radio w.truck).branch
  trucks : t.cvt.trucks = s.cvt.trucks

theorem startConvoy_started : Started s (s.startConvoy c) c := by
  let u := s.started c
  let v := u.request c
  let w := v.recomputeTarget c
  have scanned : Scanned u v := u.request_scanned c
  have target := v.recomputeTarget_frame c
  have units := w.restartUnits_same c
  have restart := w.restartUnits_frame c
  have uc : u.convoy c = { s.convoy c with state := .rolling } := s.started_convoy c
  have vc : v.convoy c = u.convoy c := scanned.convoy_moving (by simp [uc])
  have wc : w.convoy c = { s.convoy c with state := .rolling } := (target.convoy c).trans (vc.trans uc)
  have rolls : (w.convoy c).state = .rolling := by rw [wc]
  have members : w.members c = s.members c := by rw [State.members, wc, State.members]
  have track : w.track c = s.track c :=
    (target.track c).trans ((scanned.units c (by simp [uc])).trans ((s.started_frame c).track c))
  have formed : v.formed c = true := by rw [formed_iff, vc, uc]; simp
  rw [startConvoy_eq]
  change Started s (w.restartUnits c) c
  refine ⟨units.convoy.trans wc, ?_, ?_, ?_, fun i one count => ?_, fun a leader => ?_, fun hc i hi => ?_, ?_⟩
  · rw [restart.road, target.road, scanned.route, (s.started_sameRoads c).route]
    rfl
  · exact ((s.started_sameRoads c).requested (u.requested_request c)).of_sil (restart.sil.trans target.sil)
      (restart.map.trans target.map)
  · rw [units.track, track]
  · rw [unitState_restartUnits_rolling w c rolls one (by rwa [members])]
    exact unitReset_congr members track .rolling i
  · have first : v.leader? c = some a := by rw [← leader, leader?, leader?, State.members, State.members, vc, uc]
    have set := v.retarget_set first .rolling
    have told : w = v.retarget c .rolling := by
      rw [show w = v.recomputeTarget c from rfl, v.recomputeTarget_formed formed, vc, uc]
    have same : (w.restartUnits c).leaderTarget c .rolling = v.leaderTarget c .rolling :=
      (leaderTarget_of_frame restart (by rw [restart.convoy]) units.track (by decide) .rolling).trans
        (leaderTarget_of_frame target (by rw [target.convoy]) (by rw [target.track]) (by decide) .rolling)
    rw [speed_restartUnits_rolling w c rolls, same, told, set]
  · have bits : (w.radio i.truck).branch = (u.radio i.truck).branch := by
      refine Eq.trans ?_ (scanned.branch _)
      rw [show w = v.recomputeTarget c from rfl, v.recomputeTarget_formed formed, retarget_branch]
    have unit : (s.setState c .rolling).members c = s.members c := by simp [State.members, setState]
    rw [restart.radio, bits]
    refine ((evalWatch_radio _ c _).1).trans ?_
    rw [updateAllBranches_branch _ c (by rwa [unit]) (by rwa [unitsFor, unit]),
      branchFor_congr (s := s) (s.setState_frame c .rolling).map (by rw [(s.setState_frame c .rolling).road])]
    rfl
  · rw [restart.cvt, target.cvt, scanned.trucks, started_cvt]
    rfl

theorem startConvoy_frame : KeepsAllBut s (s.startConvoy c) reach := by
  have request := (s.started c).request_frame c
  have target := ((s.started c).request c).recomputeTarget_frame c
  exact ((s.started_frame c).mono.trans request).trans (target.mono.trans (restartUnits_frame _ c).mono)

theorem setState_sameRoads {s t : State} (h : SameRoads s t) (st : ConvoyState) :
    SameRoads (s.setState c st) (t.setState c st) where
  map := h.map
  hls := h.hls
  convoy d := by rw [State.setState, State.setState, convoy_modConvoy, convoy_modConvoy, h.convoy, h.convoy]
  head := h.head
  sec := h.sec
  grp := h.grp
  req := h.req
  route := h.route

/-- START is the same whatever the ports hold. -/
theorem Started.ports {s v u t : State} {c : Conv} (seen : KeepsAllBut s v [.consolePorts]) (h : Started v u c)
    (ends : KeepsAllBut u t [.consolePorts]) : Started s t c where
  convoy := by rw [ends.convoy, h.convoy, seen.convoy]
  route := by rw [ends.road, h.route, seen.road]
  requested := (setState_sameRoads c seen.sameRoads .rolling).requested (h.requested.of_sil ends.sil ends.map)
  track := by rw [ends.track, h.track, seen.track]
  units i one count := by
    rw [unitState?, ends.track, ← unitState?, h.units i one (by rwa [seen.members]),
      unitReset_congr (seen.members c) (seen.track c)]
  leader a ha := by
    rw [ends.speed, h.leader a (by rwa [leader?, seen.members]),
      leaderTarget_of_frame ends (by rw [ends.convoy]) (by rw [ends.track])]
  branches hc w hw := by
    rw [ends.radio, h.branches (by rwa [seen.members]) w (by rwa [unitsFor, seen.members]), seen.radio, seen.track,
      branchFor_congr (c := c) seen.map (by rw [seen.road])]
  trucks := by rw [ends.cvt, h.trucks, seen.cvt]

end

end State

/-- An accepted convoy request whose effect leaves the ports alone. -/
theorem State.convoyOk_ends {s u : State} {p : Port} {last : Option Conv} {bs : List Block} (k : Kind) (tag : Byte)
    (c : Conv) (h : KeepsAllBut (s.sees p last) u bs) (hk : k.haltPayload = false)
    (hb : Block.consolePorts ∉ bs := by decide) : ∃ t, ((u.convoyOk c).send p k tag).deliver.looked = t
      ∧ KeepsAllBut u t [.consolePorts] ∧ KeepsAllBut s t (.consolePorts :: bs)
      ∧ Answers s t p last (k.code ||| 0x80) tag .ok (t.shortPayload c) := by
  obtain ⟨n, ps, t, event, ht, answers⟩ := s.sees_convoyOk p last k tag c (h.ports hb) hk
  refine ⟨t, event, ht ▸ fun b hb => ?_, ht ▸ h.seen n ps, answers⟩
  cases b
  case consolePorts => exact absurd (List.mem_singleton.mpr rfl) hb
  all_goals rfl

theorem State.nextSec_none_iff (s : State) (c : Conv) :
    (s.nextSec? c).isNone = true ↔ (s.road c).route.length ≤ (s.track c).head + 1 := by
  simp [nextSec?, routeAt]

/-- Settles O29: START is read off `startConvoy_started`, in the state its owner block sees. -/
theorem startSetsTheConvoyRolling : Obligations.StartSetsTheConvoyRolling := by
  rintro s p tag b c ⟨hs, hn, ho⟩
  have mine := State.notOwner_of_mayCommand ho
  let last := s.lastAfter p b c
  let v := s.sees p last
  have seen : KeepsAllBut s v [.consolePorts] := s.sees_frame p last
  have reaches : exec (.start p tag [b]) s = .next (((v.start c).send p { code := 0x21 } tag).deliver.looked) :=
    congrArg Host.Outcome.next (State.serve_convoy (k := { code := 0x21 }) tag []
      (fun s c rest => s.bare rest fun s => s.start c) hs hn rfl mine)
  have stays : (v.nextSec? c).isNone = true ↔ (s.road c).route.length ≤ (s.track c).head + 1 := v.nextSec_none_iff c
  have refused : ((v.convoy c).state != .standing || (v.nextSec? c).isNone || v.hls.halted) = true ↔
      (s.convoy c).state ≠ .standing ∨ (s.road c).route.length ≤ (s.track c).head + 1 ∨ s.hls.halted = true := by
    rw [Bool.or_eq_true, Bool.or_eq_true, stays, bne_iff_ne, or_assoc]
    exact Iff.rfl
  refine ⟨fun bad => ?_, fun standing beyond runs => ?_⟩
  · have block : v.start c = v.refusal .badState := if_pos (refused.mpr bad)
    rw [reaches, block]
    exact congrArg Host.Outcome.next (s.sees_refused p last { code := 0x21 } tag .badState [] hs.1 rfl)
  have block : v.start c = (v.startConvoy c).convoyOk c := by
    refine if_neg fun bad => ?_
    rcases refused.mp bad with k | k | k
    · exact k standing
    · omega
    · simp [runs] at k
  obtain ⟨t, event, ends, frame, answers⟩ := State.convoyOk_ends { code := 0x21 } tag c (v.startConvoy_frame c) rfl
  have st := (v.startConvoy_started c).ports seen ends
  rw [reaches, block]
  refine ⟨t, congrArg Host.Outcome.next event, st.convoy, st.route, st.requested, st.track, fun u one count => ?_, st.leader,
    st.branches, st.trucks, frame.mono, answers⟩
  rw [st.units u one count]
  rfl

end Sys2Proof.Machine
end

section
/-!
SUPPORT. Road that is given back at once (R89), and what scans leave of a convoy that waits for nothing.
-/

namespace Sys2Proof.Machine

open Sys2Proof

set_option Elab.async false

namespace State

variable (s : State)

/-! ### Immediate release (R89) -/

section
variable (c : Conv)

theorem sec_giveBack (x y : Sec) : (s.giveBack c x).sec y =
    { s.sec y with dyn := if y = x ∧ s.holds c y = true then s.restState y else (s.sec y).dyn } := by
  unfold giveBack
  by_cases held : s.holds c x = true
  · rw [if_pos held, toRest]
    by_cases hy : y = x
    · subst hy
      simp [held]
    · simp [hy]
  · rw [if_neg held, if_neg]
    rintro ⟨rfl, k⟩
    exact held k

theorem holds_giveBack (x y : Sec) : (s.giveBack c x).holds c y = true ↔ s.holds c y = true ∧ y ≠ x := by
  rw [holds_iff, holds_iff, sec_giveBack]
  dsimp only
  by_cases given : y = x ∧ s.holds c y = true
  · rw [if_pos given]
    exact ⟨fun k => absurd k (s.restState_unheld y c), fun k => absurd given.1 k.2⟩
  · rw [if_neg given]
    exact ⟨fun k => ⟨k, fun e => given ⟨e, (s.holds_iff c y).mpr k⟩⟩, fun k => k.1⟩

/-- What a section rests in does not depend on who holds it. -/
theorem restState_congr {s t : State} {x : Sec} (hm : t.map = s.map) (hs : (t.sec x).stock = (s.sec x).stock) :
    t.restState x = s.restState x := by rw [restState, restState, hm, hs]

theorem restState_giveBack (x y : Sec) : (s.giveBack c x).restState y = s.restState y :=
  restState_congr (s.giveBack_frame c x).map (by rw [sec_giveBack])

theorem sec_giveBackAll (l : List Sec) (y : Sec) : (s.forEach l fun s x => s.giveBack c x).sec y =
    { s.sec y with dyn := if y ∈ l ∧ s.holds c y = true then s.restState y else (s.sec y).dyn } := by
  induction l generalizing s with
  | nil => simp
  | cons x l ih =>
    simp only [forEach_cons, ih, holds_giveBack, restState_giveBack, sec_giveBack, List.mem_cons]
    by_cases hy : y = x
    · simp [hy]
    · simp [hy]

/-- The road of resource `r` that `c` holds is given back. -/
theorem sec_releaseNow (r : Resource) (y : Sec) [Decidable (Within s.map r y)] : (s.releaseNow c r).sec y =
    { s.sec y with dyn := if Within s.map r y ∧ s.holds c y = true then s.restState y else (s.sec y).dyn } := by
  cases r with
  | sec x =>
    have within : Within s.map (.sec x) y ↔ y = x := by simp [Within, eq_comm]
    simp only [releaseNow, within, sec_giveBack]
  | grp g =>
    have within : Within s.map (.grp g) y ↔ y ∈ s.map.listed g := by simp [Within]
    simp only [releaseNow, within, sec_giveBackAll]
    rfl

theorem grp_giveBack (x : Sec) (g : Grp) : (s.giveBack c x).grp g = s.grp g := by
  unfold giveBack
  split <;> rfl

theorem grp_releaseNow (r : Resource) (g : Grp) : (s.releaseNow c r).grp g =
    { s.grp g with holder := if r = .grp g then none else (s.grp g).holder } := by
  cases r with
  | sec x => simp [releaseNow, grp_giveBack]
  | grp h =>
    refine (forEach_keeps (fun t => t.grp g) (fun t x => t.giveBack c x) (fun t x => t.grp_giveBack c x g) _ _).trans ?_
    by_cases hg : g = h
    · subst hg
      simp
    · simp [hg, Ne.symm hg]

theorem roads_releaseList (rs : List Resource) : (s.releaseList c rs).sil.roads = s.sil.roads := by
  have given (t : State) (x : Sec) : (t.giveBack c x).sil.roads = t.sil.roads := by
    unfold giveBack
    split <;> rfl
  refine forEach_keeps (fun t => t.sil.roads) (fun t r => t.releaseNow c r) (fun t r => ?_) _ _
  cases r with
  | sec x => exact given t x
  | grp g => exact forEach_keeps (fun t => t.sil.roads) (fun t x => t.giveBack c x) given _ _

theorem road_releaseList (rs : List Resource) (d : Conv) : (s.releaseList c rs).road d = s.road d :=
  congrArg (fun l : Tab 12 Road => l.nth d) (s.roads_releaseList c rs)

theorem givenBack_iff (rs : List Resource) (y : Sec) :
    GivenBack s c rs y ↔ s.holds c y = true ∧ ∃ r ∈ rs, Within s.map r y := by
  refine and_congr_right fun _ => ⟨?_, ?_⟩
  · rintro (h | ⟨g, h, listed⟩)
    · exact ⟨_, h, .inl rfl⟩
    · exact ⟨_, h, .inr ⟨g, rfl, listed⟩⟩
  · rintro ⟨r, h, rfl | ⟨g, rfl, listed⟩⟩
    · exact .inl h
    · exact .inr ⟨g, h, listed⟩

/-- A list of resources is given back: each section that `c` holds of them rests. -/
theorem sec_releaseList (rs : List Resource) (y : Sec) : (s.releaseList c rs).sec y =
    { s.sec y with dyn := if GivenBack s c rs y then s.restState y else (s.sec y).dyn } := by
  classical
  simp only [givenBack_iff]
  unfold releaseList
  induction rs generalizing s with
  | nil => simp
  | cons r rs ih =>
    have now := s.sec_releaseNow c r y
    have map : (s.releaseNow c r).map = s.map := (s.releaseNow_frame c r).map
    have rest : (s.releaseNow c r).restState y = s.restState y := restState_congr map (by rw [now])
    rw [forEach_cons, ih, rest, map, now]
    by_cases given : Within s.map r y ∧ s.holds c y = true
    · have gone : ¬ (s.releaseNow c r).holds c y = true := by
        rw [holds_iff, now, if_pos given]
        exact s.restState_unheld y c
      simp [given, gone]
    · have same : (s.releaseNow c r).holds c y = s.holds c y := holds_congr (by rw [now, if_neg given]) c
      rw [if_neg given, same]
      congr 2
      refine propext (and_congr_right fun held => ?_)
      simp [show ¬ Within s.map r y from fun k => given ⟨k, held⟩]

theorem grp_releaseList (rs : List Resource) (g : Grp) : (s.releaseList c rs).grp g =
    { s.grp g with holder := if .grp g ∈ rs then none else (s.grp g).holder } := by
  unfold releaseList
  induction rs generalizing s with
  | nil => simp
  | cons r rs ih =>
    rw [forEach_cons, ih, grp_releaseNow]
    by_cases hr : r = .grp g
    · simp [hr]
    · simp [hr, Ne.symm hr]

theorem queue_releaseList (rs : List Resource) (r : Resource) : (s.releaseList c rs).queue r = s.queue r := by
  cases r with
  | sec x => rw [queue_sec, sec_releaseList, queue_sec]
  | grp g => rw [queue_grp, grp_releaseList, queue_grp]

end

/-! ### Convoys that scans pass by -/

/-- Convoy `c` waits for nothing, and shares no truck with another. -/
structure Apart (c : Conv) : Prop where
  entries : ∀ r, ∀ e ∈ s.queue r, e.conv ≠ c
  trucks : ∀ d, d ≠ c → ∀ a ∈ truckAddrs (s.members c), a ∉ truckAddrs (s.members d)

/-- An effect leaves convoy `c`, its road, its tracking and its trucks as they are, and grants it nothing. -/
structure Passes (s t : State) (c : Conv) : Prop where
  convoy : t.convoy c = s.convoy c
  road : t.road c = s.road c
  track : t.track c = s.track c
  trucks : ∀ a ∈ truckAddrs (s.members c), t.speed a = s.speed a ∧ t.radio a = s.radio a
  gains : GrantsNothing s t c

theorem Passes.refl (s : State) (c : Conv) : Passes s s c := ⟨rfl, rfl, rfl, fun _ _ => ⟨rfl, rfl⟩, fun _ => id⟩

section
variable {s} {t u : State} {c : Conv}

theorem Passes.members (h : Passes s t c) : t.members c = s.members c := by rw [State.members, h.convoy, State.members]

theorem Passes.trans (h : Passes s t c) (k : Passes t u c) : Passes s u c where
  convoy := k.convoy.trans h.convoy
  road := k.road.trans h.road
  track := k.track.trans h.track
  trucks a ha :=
    have first := h.trucks a ha
    have second := k.trucks a (by rwa [h.members])
    ⟨second.1.trans first.1, second.2.trans first.2⟩
  gains x hx := h.gains x (k.gains x hx)

/-- An effect on another convoy's road and requests. -/
theorem Passes.of_frame (h : KeepsAllBut s t [.interlock]) (hr : t.road c = s.road c)
    (hx : ∀ x, (t.sec x).dyn = (s.sec x).dyn) : Passes s t c :=
  ⟨h.convoy c, hr, h.track c, fun a _ => ⟨h.speed a, h.radio a⟩, fun x k => by rwa [secHolder_congr (hx x)] at k⟩

/-- Nothing of the members moves. -/
theorem Apart.of_members (h : Apart s c) (hm : ∀ d, t.members d = s.members d)
    (he : ∀ r, ∀ e ∈ t.queue r, e.conv ≠ c) : Apart t c :=
  ⟨he, fun d hd a ha => by rw [hm] at ha ⊢; exact h.trucks d hd a ha⟩

theorem members_of_scanned (h : Scanned s t) (d : Conv) : t.members d = s.members d := by
  rcases h.convoy d with k | ⟨-, k⟩
  · rw [State.members, k, State.members]
  · rw [State.members, k, State.members]

/-- A grant to another convoy. -/
theorem grantTo_passes (h : Apart s c) {r : Resource} {e : Entry} (he : e ∈ s.queue r) : Passes s (s.grantTo r e) c := by
  have other : c ≠ e.conv := fun k => h.entries r e he k.symm
  obtain ⟨convoy, road, track⟩ := s.grantTo_otherConvoys r e c other
  refine ⟨convoy, road, track, fun a ha => s.grantTo_otherTrucks r e a (h.trucks _ other.symm a ha), fun x hx => ?_⟩
  rw [← holds_iff_secHolder, holds_iff, sec_grantTo] at hx
  rw [← holds_iff_secHolder, holds_iff]
  split at hx
  · exact absurd (SecState.held.inj hx) other.symm
  · split at hx
    · exact hx
    · exact hx

theorem grantTo_apart (h : Apart s c) {r : Resource} {e : Entry} (elig : s.eligible r e = true) : Apart (s.grantTo r e) c := by
  refine h.of_members (members_of_scanned (s.grantTo_scanned elig)) fun y f hf => h.entries y f ?_
  rw [queue_grantTo] at hf
  split at hf
  · rename_i hy
    exact hy ▸ (List.mem_filter.mp hf).1
  · exact hf

theorem join_apart (h : Apart s c) {d : Conv} (hd : d ≠ c) (k : Nat) (x : Sec) (r : Resource) : Apart (s.join d k x r) c := by
  refine h.of_members (members_of_scanned (s.join_scanned d k x r)) fun y f hf => ?_
  rw [queue_join] at hf
  split at hf
  · rcases (mem_insertEntry _ _ _).mp hf with k | k
    · exact k ▸ hd
    · exact h.entries r f k
  · exact h.entries y f hf

theorem join_passes {d : Conv} (hd : d ≠ c) (k : Nat) (x : Sec) (r : Resource) : Passes s (s.join d k x r) c :=
  .of_frame (s.join_frame d k x r) (by rw [road_join, if_neg hd.symm]) fun x => by rw [join, sec_modRoad, dyn_modQueue]

theorem refuse_passes {d : Conv} (hd : d ≠ c) (x : Sec) (r : Resource) : Passes s (s.refuse d x r) c :=
  .of_frame (s.refuse_frame d x r) (by rw [road_refuse, if_neg hd.symm]) fun _ => rfl

theorem refuse_apart (h : Apart s c) (d : Conv) (x : Sec) (r : Resource) : Apart (s.refuse d x r) c :=
  h.of_members (members_of_scanned (s.refuse_scanned d x r)) fun y f hf => h.entries y f (by rwa [queue_refuse] at hf)

theorem scanFuel_passes (h : Apart s c) (fuel : Nat) (r : Resource) :
    Passes s (s.scanFuel fuel r) c ∧ Apart (s.scanFuel fuel r) c := by
  induction fuel generalizing s r with
  | zero => exact ⟨.refl s c, h⟩
  | succ n ih =>
    unfold scanFuel
    split
    · exact ⟨.refl s c, h⟩
    · rename_i e choice
      obtain ⟨-, queued, elig⟩ := s.scanChoice_some choice
      have other := h.entries r e queued
      have passes := grantTo_passes h queued
      have apart := grantTo_apart h elig
      dsimp only
      split
      · exact ⟨passes, apart⟩
      · split
        · exact ⟨passes.trans (refuse_passes other _ _), refuse_apart apart _ _ _⟩
        · obtain ⟨later, still⟩ := ih (join_apart apart other _ _ _) _
          exact ⟨passes.trans ((join_passes other _ _ _).trans later), still⟩

theorem anyOrder_passes {α : Type} (h : Apart s c) (l : List α) :
    Passes s (s.anyOrder l).2 c ∧ Apart (s.anyOrder l).2 c := by
  obtain ⟨k, hk⟩ := s.anyOrder_state l
  rw [hk]
  exact ⟨⟨rfl, rfl, rfl, fun _ _ => ⟨rfl, rfl⟩, fun _ => id⟩, ⟨h.entries, h.trucks⟩⟩

theorem scanAll_passes (h : Apart s c) (rs : List Resource) : Passes s (s.scanAll rs) c ∧ Apart (s.scanAll rs) c := by
  refine forEach_inv (fun t => Passes s t c ∧ Apart t c) scan (fun t r ht => ?_) _ _ (anyOrder_passes h _)
  obtain ⟨passes, apart⟩ := scanFuel_passes ht.2 scanLimit r
  exact ⟨ht.1.trans passes, apart⟩

end

end State

end Sys2Proof.Machine
end

section
/-!
Faults, strays and overruns: O44.
-/

namespace Sys2Proof.Machine

open Sys2Proof

set_option Elab.async false

namespace State

variable (s : State)

/-! ### What a fault does to the convoy (R105) -/

/-- A hard stop of several trucks: each stands, its STOP frame marked once. -/
theorem hardStops_spec (l : List Addr) :
    (∀ a ∈ l, (s.forEach l hardStop).speed a = ⟨0, 0⟩ ∧ (s.forEach l hardStop).radio a = (s.radio a).stopped s.eventNo)
      ∧ ∀ a, a ∉ l → (s.forEach l hardStop).speed a = s.speed a ∧ (s.forEach l hardStop).radio a = s.radio a := by
  induction l generalizing s with
  | nil => exact ⟨fun a ha => absurd ha List.not_mem_nil, fun _ _ => ⟨rfl, rfl⟩⟩
  | cons b l ih =>
    obtain ⟨⟨speed, radio⟩, others⟩ := s.hardStop_spec b
    obtain ⟨stopped, kept⟩ := ih (s.hardStop b)
    have number : (s.hardStop b).eventNo = s.eventNo := rfl
    refine ⟨fun a ha => ?_, fun a ha => ?_⟩
    · rw [forEach_cons]
      by_cases hl : a ∈ l
      · rw [(stopped a hl).1, (stopped a hl).2, number]
        by_cases hb : a = b
        · subst hb
          rw [radio]
          exact ⟨rfl, rfl⟩
        · rw [(others a hb).2]
          exact ⟨rfl, rfl⟩
      · obtain rfl : a = b := (List.mem_cons.mp ha).resolve_right hl
        rw [(kept a hl).1, (kept a hl).2]
        exact ⟨speed, radio⟩
    · obtain ⟨hb, hl⟩ := not_or.mp (mt List.mem_cons.mpr ha)
      rw [forEach_cons, (kept a hl).1, (kept a hl).2]
      exact others a hb

section
variable (c : Conv)

/-- The fault is stored, the trucks are hard-stopped and the units DOWN; the road is as it was. -/
def struck (f : ConvoyFault) : State :=
  ((s.modConvoy c fun r => { r with fault := some f, state := .stopped, resume := none }).hardStopAll c).unitsDown c

theorem stopFaulty_struck {f : ConvoyFault} (h : (s.convoy c).state ≠ .stopped) :
    s.stopFaulty c f = (s.struck c f).interlockFault c := if_neg h

theorem struck_frame (f : ConvoyFault) : KeepsAllBut s (s.struck c f) [.convoyTable, .tracker, .governor, .dispatcher] :=
  (s.modConvoy_frame c _).mono.trans ((hardStopAll_frame _ c).mono.trans (unitsDown_frame _ c).mono)

theorem struck_cvt (f : ConvoyFault) : (s.struck c f).cvt
    = (s.modConvoy c fun r => { r with fault := some f, state := .stopped, resume := none }).cvt :=
  (unitsDown_frame _ c).cvt.trans (hardStopAll_frame _ c).cvt

theorem struck_convoy (f : ConvoyFault) (d : Conv) : (s.struck c f).convoy d =
    if d = c then { s.convoy c with state := .stopped, fault := some f, resume := none } else s.convoy d := by
  rw [convoy, struck_cvt, ← convoy, convoy_modConvoy]

theorem struck_members (f : ConvoyFault) (d : Conv) : (s.struck c f).members d = s.members d := by
  rw [State.members, struck_convoy]
  split
  · rename_i h
    rw [h]
    rfl
  · rfl

theorem struck_track (f : ConvoyFault) (d : Conv) : (s.struck c f).track d =
    if d = c then { s.track c with units := s.allDown c } else s.track d := by
  let v := s.modConvoy c fun r => { r with fault := some f, state := .stopped, resume := none }
  have frame := v.hardStopAll_frame c
  have members : (v.hardStopAll c).members c = s.members c := by
    rw [frame.members, State.members, convoy_modConvoy, if_pos rfl]
    rfl
  have units : ((v.hardStopAll c).unitsFor c).tail.length = unitCount (s.members c) - 1 := by
    rw [List.length_tail, unitsFor, unitsOf_length, members]
  change ((v.hardStopAll c).unitsDown c).track d = _
  rw [unitsDown, track_modTrack, units, frame.track, frame.track]
  rfl

theorem struck_trucks (f : ConvoyFault) :
    (∀ a ∈ truckAddrs (s.members c), (s.struck c f).speed a = ⟨0, 0⟩
      ∧ (s.struck c f).radio a = (s.radio a).stopped s.eventNo)
    ∧ KeepsOtherTrucks s (s.struck c f) (truckAddrs (s.members c)) := by
  let v := s.modConvoy c fun r => { r with fault := some f, state := .stopped, resume := none }
  have members : v.members c = s.members c := by
    rw [State.members, convoy_modConvoy, if_pos rfl]
    rfl
  have stops := v.hardStops_spec (truckAddrs (s.members c))
  rw [← members] at stops ⊢
  exact stops

/-! ### What the Interlock does (R90) -/

/-- The road ahead rests on what the convoy holds, and on its route up to the head. -/
theorem aheadOf_congr {s t : State} {c : Conv} (hm : t.map = s.map) (hr : (t.road c).route = (s.road c).route)
    (hh : (t.track c).head = (s.track c).head) (hx : ∀ x, t.holds c x = s.holds c x)
    (hg : ∀ g, (t.grp g).holder = some c ↔ (s.grp g).holder = some c) : t.aheadOf c = s.aheadOf c := by
  have record (x : Sec) : t.sectionRec x = s.sectionRec x := congrArg (fun m : LayoutMap => m.sections.nth x) hm
  have alone : t.holdsAlone c = s.holdsAlone c := funext fun x => by simp only [holdsAlone, hx, record]
  have groups : t.heldGroups c = s.heldGroups c := by
    refine List.filter_congr fun g _ => ?_
    rw [Bool.eq_iff_iff, beq_iff_eq, beq_iff_eq]
    exact hg g
  simp only [aheadOf, hr, hh, alone, groups, record]

theorem withdraw_cancelWatch_road (d : Conv) : ((s.withdraw c).cancelWatch c).road d =
    if d = c then ⟨(s.road c).route, .idle, .idle⟩ else s.road d := by
  rw [cancelWatch, road_modRoad, road_withdraw, road_withdraw]
  simp only [if_true]
  split <;> rfl

theorem interlockFault_eq : s.interlockFault c = ((s.withdraw c).cancelWatch c).releaseList c (s.aheadOf c) := rfl

theorem road_interlockFault (d : Conv) : (s.interlockFault c).road d =
    if d = c then ⟨(s.road c).route, .idle, .idle⟩ else s.road d := by
  rw [interlockFault_eq, road_releaseList, withdraw_cancelWatch_road]

theorem queue_withdraw_cancelWatch (r : Resource) : ((s.withdraw c).cancelWatch c).queue r = s.queueWithout c r := by
  rw [cancelWatch, queue_modRoad, queue_withdraw]

theorem queue_interlockFault (r : Resource) : (s.interlockFault c).queue r = s.queueWithout c r := by
  rw [interlockFault_eq, queue_releaseList, queue_withdraw_cancelWatch]

theorem sec_interlockFault (x : Sec) : (s.interlockFault c).sec x =
    ⟨if GivenBack s c (s.aheadOf c) x then s.restState x else (s.sec x).dyn, (s.sec x).stock, s.queueWithout c (.sec x)⟩ := by
  let v := (s.withdraw c).cancelWatch c
  have map : v.map = s.map := (cancelWatch_frame _ c).map.trans (s.withdraw_frame c).map
  have dyn : (v.sec x).dyn = (s.sec x).dyn := s.dyn_withdraw c x
  have stock : (v.sec x).stock = (s.sec x).stock := s.stock_withdraw c x
  have queue : (v.sec x).queue = s.queueWithout c (.sec x) := s.queue_withdraw_cancelWatch c (.sec x)
  have given : GivenBack v c (s.aheadOf c) x ↔ GivenBack s c (s.aheadOf c) x := by
    unfold GivenBack
    rw [holds_congr dyn, map]
  rw [interlockFault_eq, show (s.withdraw c).cancelWatch c = v from rfl, sec_releaseList, restState_congr map stock, dyn]
  simp only [given, ← queue, ← stock]

theorem grp_interlockFault (g : Grp) : (s.interlockFault c).grp g =
    ⟨if .grp g ∈ s.aheadOf c then none else (s.grp g).holder, s.queueWithout c (.grp g)⟩ := by
  have holder : (((s.withdraw c).cancelWatch c).grp g).holder = (s.grp g).holder := s.holder_withdraw c g
  rw [interlockFault_eq, grp_releaseList, holder, ← s.queue_withdraw_cancelWatch c (.grp g)]
  rfl

/-! ### A fault before its scans (R90, R105) -/

section
variable {s c} {f : ConvoyFault} (h : (s.convoy c).state ≠ .stopped)
include h

omit h in
theorem aheadOf_struck : (s.struck c f).aheadOf c = s.aheadOf c := by
  have frame := s.struck_frame c f
  exact aheadOf_congr frame.map (by rw [frame.road]) (by rw [struck_track, if_pos rfl]) (fun x => frame.holds c x)
    fun g => by rw [frame.grp]

theorem sec_stopFaulty (x : Sec) : (s.stopFaulty c f).sec x =
    ⟨if GivenBack s c (s.aheadOf c) x then s.restState x else (s.sec x).dyn, (s.sec x).stock, s.queueWithout c (.sec x)⟩ := by
  have frame := s.struck_frame c f
  have given : GivenBack (s.struck c f) c (s.aheadOf c) x ↔ GivenBack s c (s.aheadOf c) x := by
    unfold GivenBack
    rw [frame.holds, frame.map]
  have queue : (s.struck c f).queueWithout c (.sec x) = s.queueWithout c (.sec x) := by
    rw [queueWithout, frame.road, frame.queue, queueWithout]
  rw [stopFaulty_struck s c h, sec_interlockFault, aheadOf_struck, queue, frame.sec,
    restState_congr frame.map (by rw [frame.sec])]
  simp only [given]

theorem grp_stopFaulty (g : Grp) : (s.stopFaulty c f).grp g =
    ⟨if .grp g ∈ s.aheadOf c then none else (s.grp g).holder, s.queueWithout c (.grp g)⟩ := by
  have frame := s.struck_frame c f
  rw [stopFaulty_struck s c h, grp_interlockFault, aheadOf_struck, frame.grp, queueWithout, frame.road, frame.queue,
    queueWithout]

theorem road_stopFaulty (d : Conv) : (s.stopFaulty c f).road d =
    if d = c then ⟨(s.road c).route, .idle, .idle⟩ else s.road d := by
  rw [stopFaulty_struck s c h, road_interlockFault, (s.struck_frame c f).road, (s.struck_frame c f).road]

theorem queue_stopFaulty (r : Resource) : (s.stopFaulty c f).queue r = s.queueWithout c r := by
  have frame := s.struck_frame c f
  rw [stopFaulty_struck s c h, queue_interlockFault, queueWithout, frame.road, frame.queue, queueWithout]

theorem convoy_stopFaulty (d : Conv) : (s.stopFaulty c f).convoy d =
    if d = c then { s.convoy c with state := .stopped, fault := some f, resume := none } else s.convoy d := by
  rw [stopFaulty_struck s c h, (interlockFault_frame _ c).convoy, struck_convoy]

theorem track_stopFaulty (d : Conv) : (s.stopFaulty c f).track d =
    if d = c then { s.track c with units := s.allDown c } else s.track d := by
  rw [stopFaulty_struck s c h, (interlockFault_frame _ c).track, struck_track]

theorem stopFaulty_trucks : (s.stopFaulty c f).cvt.trucks = s.cvt.trucks := by
  rw [stopFaulty_struck s c h, (interlockFault_frame _ c).cvt, struck_cvt]
  rfl

theorem stopFaulty_stops : ∀ a ∈ truckAddrs (s.members c), (s.stopFaulty c f).speed a = ⟨0, 0⟩
    ∧ (s.stopFaulty c f).radio a = (s.radio a).stopped s.eventNo := fun a ha => by
  rw [stopFaulty_struck s c h, (interlockFault_frame _ c).speed, (interlockFault_frame _ c).radio]
  exact (s.struck_trucks c f).1 a ha

theorem stopFaulty_otherTrucks : KeepsOtherTrucks s (s.stopFaulty c f) (truckAddrs (s.members c)) := fun a ha => by
  rw [stopFaulty_struck s c h, (interlockFault_frame _ c).speed, (interlockFault_frame _ c).radio]
  exact (s.struck_trucks c f).2 a ha

theorem stopFaulty_otherConvoys : KeepsOtherConvoys s (s.stopFaulty c f) c := fun d hd =>
  ⟨by rw [convoy_stopFaulty h, if_neg hd], by rw [road_stopFaulty h, if_neg hd], by rw [track_stopFaulty h, if_neg hd]⟩

/-- A fault grants nothing. -/
theorem stopFaulty_gains (d : Conv) (x : Sec) (hx : (s.stopFaulty c f).secHolder x = some d) : s.secHolder x = some d := by
  rw [← holds_iff_secHolder, holds_iff, sec_stopFaulty h] at hx
  rw [← holds_iff_secHolder, holds_iff]
  dsimp only at hx
  split at hx
  · exact absurd hx (s.restState_unheld x d)
  · exact hx

end

theorem stopFaulty_stopped {f : ConvoyFault} (h : (s.convoy c).state = .stopped) : s.stopFaulty c f = s := if_pos h

theorem stopFaulty_members (f : ConvoyFault) (d : Conv) : (s.stopFaulty c f).members d = s.members d := by
  by_cases h : (s.convoy c).state = .stopped
  · rw [stopFaulty_stopped s c h]
  · rw [State.members, convoy_stopFaulty h]
    split
    · rename_i hd
      rw [hd]
      rfl
    · rfl

end

/-- No truck is a member of two convoys (R49). -/
theorem trucks_apart {s : State} (hm : MembersActive s) {c d : Conv} (hd : d ≠ c) {a : Addr}
    (ha : a ∈ truckAddrs (s.members c)) : a ∉ truckAddrs (s.members d) := fun k => by
  have usage := (hm.1 c a ha).symm.trans (hm.1 d a k)
  exact hd (TruckUse.active.inj usage).symm

theorem apart_of_laws {s : State} (hm : MembersActive s) (hq : QueuesAgree s) {c : Conv}
    (h : ∀ r, (s.road c).req ≠ .queued r) : Apart s c :=
  ⟨fun _ _ he => s.idle_no_entry hq h he, fun _ hd _ ha => trucks_apart hm hd ha⟩

/-- What a fault makes of its convoy, and leaves it. -/
structure Suffered (s t : State) (d : Conv) (f : ConvoyFault) : Prop where
  convoy : t.convoy d = { s.convoy d with state := .stopped, fault := some f, resume := none }
  trucks : ∀ a ∈ truckAddrs (s.members d), t.speed a = ⟨0, 0⟩ ∧ t.radio a = (s.radio a).stopped s.eventNo
  track : t.track d = { s.track d with units := s.allDown d }
  road : t.road d = ⟨(s.road d).route, .idle, .idle⟩
  gains : GrantsNothing s t d
  released : ∀ y, GivenBack s d (s.aheadOf d) y → t.secHolder y ≠ some d

section
variable {s} {t : State} {c d : Conv} {f g : ConvoyFault}

theorem stopFaulty_suffered (h : (s.convoy c).state ≠ .stopped) : Suffered s (s.stopFaulty c f) c f where
  convoy := by rw [convoy_stopFaulty h, if_pos rfl]
  trucks := stopFaulty_stops h
  track := by rw [track_stopFaulty h, if_pos rfl]
  road := by rw [road_stopFaulty h, if_pos rfl]
  gains := stopFaulty_gains h c
  released y given := by
    rw [Ne, ← holds_iff_secHolder, holds_iff, sec_stopFaulty h, if_pos given]
    exact s.restState_unheld y c

theorem Suffered.passed {u : State} (h : Suffered s t c f) (k : Passes t u c) : Suffered s u c f := by
  have members : t.members c = s.members c := by rw [State.members, h.convoy, State.members]
  refine ⟨k.convoy.trans h.convoy, fun a ha => ?_, k.track.trans h.track, k.road.trans h.road,
    fun x hx => h.gains x (k.gains x hx), fun y hy e => h.released y hy (k.gains y e)⟩
  obtain ⟨speed, radio⟩ := k.trucks a (by rwa [members])
  rw [speed, radio]
  exact h.trucks a ha

/-- A fault of `c` passes any other convoy by. -/
theorem stopFaulty_passes (hm : MembersActive s) (hd : d ≠ c) : Passes s (s.stopFaulty c f) d := by
  by_cases h : (s.convoy c).state = .stopped
  · rw [stopFaulty_stopped s c h]
    exact .refl s d
  · obtain ⟨convoy, road, track⟩ := stopFaulty_otherConvoys (f := f) h d hd
    exact ⟨convoy, road, track, fun a ha => stopFaulty_otherTrucks h a (trucks_apart hm hd.symm ha), stopFaulty_gains h d⟩

/-- A fault of another convoy takes nothing from `d`. -/
theorem stopFaulty_ahead (h : (s.convoy c).state ≠ .stopped) (hd : d ≠ c) :
    (s.stopFaulty c f).aheadOf d = s.aheadOf d ∧ ∀ x, (s.stopFaulty c f).holds d x = s.holds d x := by
  have holds (x : Sec) : (s.stopFaulty c f).holds d x = s.holds d x := by
    rw [Bool.eq_iff_iff, holds_iff, holds_iff, sec_stopFaulty h]
    dsimp only
    split
    · rename_i given
      have mine := (s.holds_iff c x).mp given.1
      rw [mine]
      exact ⟨fun k => absurd k (s.restState_unheld x d), fun k => absurd (SecState.held.inj k).symm hd⟩
    · rfl
  obtain ⟨-, road, track⟩ := stopFaulty_otherConvoys (f := f) h d hd
  refine ⟨aheadOf_congr (s.stopFaulty_frame c f).map (by rw [road]) (by rw [track]) holds fun g => ?_, holds⟩
  rw [grp_stopFaulty h]
  dsimp only
  split
  · rename_i ahead
    have mine : (s.grp g).holder = some c := by
      rcases List.mem_append.mp ahead with k | k
      · simp at k
      · obtain ⟨g', hg', e⟩ := List.mem_map.mp k
        obtain rfl : g' = g := Resource.grp.inj e
        simpa [heldGroups] using (List.mem_filter.mp hg').1
    rw [mine]
    exact ⟨fun k => (by simp at k), fun k => absurd (Option.some.inj k).symm hd⟩
  · rfl

end

/-! ### The notice, and the whole fault (R105) -/

theorem raise_passes (n : Notice) (who : Audience) (d : Conv) : Passes s (s.raise n who) d :=
  .of_frame (s.raise_frame n who).mono rfl fun _ => rfl

/-- Who a convoy's owner is, no road changes. -/
theorem owner_recipients {s t : State} (h : KeepsAllBut s t reach) {c : Conv}
    (ho : (t.convoy c).owner = (s.convoy c).owner) : t.recipients (.ownerOf c) = s.recipients (.ownerOf c) := by
  have attached : t.attachedPorts = s.attachedPorts := by simp only [attachedPorts, State.port, h.ports]
  have level : t.level = s.level := funext fun p => congrArg (fun m : LayoutMap => m.settings.levels.nth p) h.map
  simp only [recipients, ho, levelZeroPorts, attached, level]

theorem scanned_owner {s t : State} (h : Scanned s t) (c : Conv) : (t.convoy c).owner = (s.convoy c).owner := by
  rcases h.convoy c with k | ⟨-, k⟩
  · rw [k]
  · rw [k]

theorem stopFaulty_owner (c : Conv) (f : ConvoyFault) (d : Conv) :
    ((s.stopFaulty c f).convoy d).owner = (s.convoy d).owner := by
  by_cases h : (s.convoy c).state = .stopped
  · rw [stopFaulty_stopped s c h]
  · rw [convoy_stopFaulty h]
    split
    · rename_i hd
      rw [hd]
    · rfl

/-- After its fault a convoy waits for nothing. -/
theorem stopFaulty_apart {s : State} (hm : MembersActive s) (hq : QueuesAgree s) {c : Conv} {f : ConvoyFault}
    (h : (s.convoy c).state ≠ .stopped) : Apart (s.stopFaulty c f) c := by
  refine ⟨fun _ _ he => idle_no_entry _ ((s.stopFaulty_kept c f).queues hq) (fun r => ?_) he, fun d hd a ha => ?_⟩
  · rw [road_stopFaulty h, if_pos rfl]
    simp
  · rw [stopFaulty_members] at ha ⊢
    exact trucks_apart hm hd ha

theorem fault_eq {c : Conv} (f : ConvoyFault) (n : Nat) (h : (s.convoy c).state ≠ .stopped) :
    s.fault c f n = ((s.stopFaulty c f).scanAll (s.aheadOf c)).faultNotice c f n := by
  rw [fault, faultRoad, if_neg h]

theorem fault_suffered {s : State} (hm : MembersActive s) (hq : QueuesAgree s) {c : Conv} {f : ConvoyFault} (n : Nat)
    (h : (s.convoy c).state ≠ .stopped) : Suffered s (s.fault c f n) c f := by
  rw [fault_eq s f n h]
  have scans := (scanAll_passes (stopFaulty_apart (f := f) hm hq h) (s.aheadOf c)).1
  exact (stopFaulty_suffered h).passed (scans.trans (raise_passes _ _ _ c))

/-- The notice of a fault is the last that it raises. -/
theorem fault_notice (c : Conv) (f : ConvoyFault) (n : Nat) (h : (s.convoy c).state ≠ .stopped) :
    ⟨⟨f.kind.notice, some c, some f.sec, none, some f.member, n⟩, s.recipients (.ownerOf c)⟩ ∈ (s.fault c f n).raised := by
  have scanned := (s.stopFaulty c f).scanAll_scanned (s.aheadOf c)
  have owner := (scanned_owner scanned c).trans (s.stopFaulty_owner c f c)
  rw [fault_eq s f n h, ← owner_recipients ((s.stopFaulty_frame c f).trans scanned.frame) owner]
  exact List.mem_append_right _ (List.mem_singleton.mpr rfl)

/-- Where nobody waits for what the convoy had ahead, no scan follows its fault. -/
theorem fault_unawaited {c : Conv} {f : ConvoyFault} (n : Nat) (h : (s.convoy c).state ≠ .stopped)
    (none : NobodyWaits s (s.aheadOf c)) : s.fault c f n = (s.stopFaulty c f).faultNotice c f n := by
  rw [fault_eq s f n h, scanAll_idle]
  intro r hr
  rw [queue_stopFaulty h, queueWithout, none r hr]
  split <;> rfl

/-! ### Strays and overruns (R103, R104) -/

theorem modSec_same {x : Sec} {f : Section → Section} (h : f (s.sec x) = s.sec x) : s.modSec x f = s := by
  rw [sec] at h
  rw [modSec, h, tab_put_nth]

/-- An occupied section in service that nobody holds is BLOCKED. -/
theorem occupied_eq {x : Sec} (h : s.secHolder x = none) : s.occupied x =
    if (s.sec x).dyn = .barred then s else s.modSec x fun q => { q with dyn := .blocked } := by
  unfold occupied
  cases hd : (s.sec x).dyn with
  | free => rfl
  | parked => rfl
  | clearing ms => rfl
  | held e => simp [secHolder, hd] at h
  | barred => rfl
  | blocked =>
    have same : s.modSec x (fun q => { q with dyn := .blocked }) = s := s.modSec_same (by rw [← hd])
    rw [if_neg (by simp), same]

/-- Both faults of an overrun into a held section, before the scans of what they release. -/
def bothStopped (c e : Conv) (x : Sec) : State :=
  (s.stopFaulty c ⟨.overrun, x, 0⟩).stopFaulty e ⟨.intruded, x, s.countAt e x⟩

/-- The road that the two faults release. -/
def bothReleased (c e : Conv) (x : Sec) : List Resource :=
  s.faultRoad c ++ (s.stopFaulty c ⟨.overrun, x, 0⟩).faultRoad e

theorem stopFaulty_active {s : State} (h : MembersActive s) (c : Conv) (f : ConvoyFault) : MembersActive (s.stopFaulty c f) := by
  by_cases st : (s.convoy c).state = .stopped
  · rwa [stopFaulty_stopped s c st]
  · refine ⟨fun d a ha => ?_, fun d hd => ?_⟩
    · rw [stopFaulty_members] at ha
      rw [usage, stopFaulty_trucks st]
      exact h.1 d a ha
    · rw [stopFaulty_members]
      refine h.2 d ?_
      rw [formed, convoy_stopFaulty st] at hd
      split at hd
      · simp at hd
      · exact hd

theorem apart_stopFaulty {s : State} {d : Conv} (h : Apart s d) (c : Conv) (f : ConvoyFault) : Apart (s.stopFaulty c f) d := by
  by_cases st : (s.convoy c).state = .stopped
  · rwa [stopFaulty_stopped s c st]
  · refine h.of_members (s.stopFaulty_members c f) fun r e he => h.entries r e ?_
    rw [queue_stopFaulty st, queueWithout] at he
    split at he
    · exact (List.mem_filter.mp he).1
    · exact he

theorem stopFaulty_eventNo (c : Conv) (f : ConvoyFault) : (s.stopFaulty c f).eventNo = s.eventNo := by
  have back (t : State) (x : Sec) : (t.giveBack c x).eventNo = t.eventNo := by
    unfold giveBack
    split <;> rfl
  have now (t : State) (r : Resource) : (t.releaseNow c r).eventNo = t.eventNo := by
    cases r with
    | sec x => exact back t x
    | grp g => exact forEach_keeps eventNo (fun t x => t.giveBack c x) back _ _
  have withdrawn (t : State) : (t.withdraw c).eventNo = t.eventNo := by
    unfold withdraw
    split
    · rename_i r _
      cases r <;> rfl
    · rfl
    · rfl
  by_cases st : (s.convoy c).state = .stopped
  · rw [stopFaulty_stopped s c st]
  · rw [stopFaulty_struck s c st]
    refine (forEach_keeps eventNo (fun t r => t.releaseNow c r) now _ _).trans ((withdrawn _).trans ?_)
    exact forEach_keeps eventNo hardStop (fun _ _ => rfl) _ _

section
variable {s} {t u : State} {d : Conv} {f : ConvoyFault}

/-- A fault after an effect that takes nothing from the convoy. -/
theorem Suffered.after (h : Suffered t u d f) (passes : Passes s t d) (number : t.eventNo = s.eventNo) (map : t.map = s.map)
    (ahead : t.aheadOf d = s.aheadOf d ∧ ∀ x, t.holds d x = s.holds d x) : Suffered s u d f := by
  have members : t.members d = s.members d := passes.members
  obtain ⟨road, holds⟩ := ahead
  refine ⟨?_, fun a ha => ?_, ?_, ?_, fun x hx => passes.gains x (h.gains x hx), fun y given => h.released y ?_⟩
  · rw [h.convoy, passes.convoy]
  · obtain ⟨speed, radio⟩ := h.trucks a (by rwa [members])
    rw [speed, radio, (passes.trucks a ha).2, number]
    exact ⟨rfl, rfl⟩
  · rw [h.track, passes.track, allDown, members, allDown]
  · rw [h.road, passes.road]
  · rw [GivenBack, road, holds, map]
    exact given

end

/-- What an overrun or an intrusion means for a convoy: its fault, or, where it is STOPPED, a notice alone. -/
def Suffers (s t : State) (d : Conv) (f : ConvoyFault) : Prop :=
  ((s.convoy d).state = .stopped → t.convoy d = s.convoy d) ∧ ((s.convoy d).state ≠ .stopped → Suffered s t d f)

section
variable {s} {c e : Conv} {x : Sec} (hm : MembersActive s) (hq : QueuesAgree s) (hne : e ≠ c)
include hm hq hne

theorem bothStopped_first (rs : List Resource) :
    Suffers s ((s.bothStopped c e x).scanAll rs) c ⟨.overrun, x, 0⟩ := by
  let a := s.stopFaulty c ⟨.overrun, x, 0⟩
  have second : Passes a (s.bothStopped c e x) c := stopFaulty_passes (stopFaulty_active hm c _) hne.symm
  refine ⟨fun st => ?_, fun st => ?_⟩
  · have kept : (s.bothStopped c e x).convoy c = s.convoy c := by
      rw [second.convoy, show a = s from stopFaulty_stopped s c st]
    rw [((s.bothStopped c e x).scanAll_scanned rs).convoy_moving (by simp [kept, st]), kept]
  · have apart : Apart (s.bothStopped c e x) c := apart_stopFaulty (stopFaulty_apart hm hq st) e _
    exact (stopFaulty_suffered st).passed (second.trans (scanAll_passes apart rs).1)

theorem bothStopped_second (rs : List Resource) :
    Suffers s ((s.bothStopped c e x).scanAll rs) e ⟨.intruded, x, s.countAt e x⟩ := by
  let a := s.stopFaulty c ⟨.overrun, x, 0⟩
  have first : Passes s a e := stopFaulty_passes hm hne
  have active : MembersActive a := stopFaulty_active hm c _
  have agree : QueuesAgree a := (s.stopFaulty_kept c _).queues hq
  have same : (a.convoy e).state = (s.convoy e).state := by rw [first.convoy]
  refine ⟨fun st => ?_, fun st => ?_⟩
  · have kept : (s.bothStopped c e x).convoy e = s.convoy e := by
      rw [bothStopped, stopFaulty_stopped _ e (same.trans st), first.convoy]
    rw [((s.bothStopped c e x).scanAll_scanned rs).convoy_moving (by simp [kept, st]), kept]
  · have stands : (a.convoy e).state ≠ .stopped := by rwa [same]
    have suffered : Suffered a (s.bothStopped c e x) e ⟨.intruded, x, s.countAt e x⟩ := stopFaulty_suffered stands
    have ahead : a.aheadOf e = s.aheadOf e ∧ ∀ y, a.holds e y = s.holds e y := by
      by_cases k : (s.convoy c).state = .stopped
      · rw [show a = s from stopFaulty_stopped s c k]
        exact ⟨rfl, fun _ => rfl⟩
      · exact stopFaulty_ahead k hne
    exact ((suffered.after first (s.stopFaulty_eventNo c _) (s.stopFaulty_frame c _).map ahead).passed
      (scanAll_passes (stopFaulty_apart active agree stands) rs).1)

end

theorem overrun_held {x : Sec} {c e : Conv} (h : (s.sec x).dyn = .held e) : s.overrun c x =
    (((s.bothStopped c e x).scanAll (s.bothReleased c e x)).faultNotice c ⟨.overrun, x, 0⟩ (convoyNumber e)).faultNotice e
      ⟨.intruded, x, s.countAt e x⟩ (convoyNumber c) := by
  have holder : s.secHolder x = some e := by rw [secHolder, h]
  rw [overrun, holder]
  rfl

theorem Suffers.passed {s t u : State} {d : Conv} {f : ConvoyFault} (h : Suffers s t d f) (k : Passes t u d) :
    Suffers s u d f := ⟨fun st => k.convoy.trans (h.1 st), fun st => (h.2 st).passed k⟩

/-- The statement's form of `Suffers`. -/
theorem Suffers.spelled {s t : State} {d : Conv} {f : ConvoyFault} (h : Suffers s t d f) :
    ((s.convoy d).state = .stopped → t.convoy d = s.convoy d)
    ∧ ((s.convoy d).state ≠ .stopped →
      t.convoy d = { s.convoy d with state := .stopped, fault := some f, resume := none }
      ∧ (∀ a ∈ truckAddrs (s.members d), t.speed a = ⟨0, 0⟩ ∧ t.radio a = (s.radio a).stopped s.eventNo)
      ∧ t.track d = { s.track d with units := s.allDown d } ∧ t.road d = ⟨(s.road d).route, .idle, .idle⟩
      ∧ GrantsNothing s t d ∧ ∀ y, GivenBack s d (s.aheadOf d) y → t.secHolder y ≠ some d) :=
  ⟨h.1, fun st =>
    have k := h.2 st
    ⟨k.convoy, k.trucks, k.track, k.road, k.gains, k.released⟩⟩

end State

/-- Settles O44: a fault is `stopFaulty`, which leaves the convoy waiting for nothing, so that the scans after it pass the
convoy by (`scanAll_passes`); an overrun into a held section is two such faults. -/
theorem faultsStopConvoysAndStraysBlockRoad : Obligations.FaultsStopConvoysAndStraysBlockRoad := by
  intro s
  refine ⟨fun c f n st => s.fault_stopped c f n st, fun c f n hm hq st => ?_, fun x d c => ⟨?_, fun none => ?_⟩,
    fun x c e held hne hm hq => ?_⟩
  · have suffered := State.fault_suffered (f := f) hm hq n st
    have frame := s.fault_frame c f n
    refine ⟨suffered.convoy, suffered.trucks, suffered.track, suffered.road, s.fault_notice c f n st, suffered.gains, ?_,
      frame.mono, frame.ports, fun none => ?_⟩
    · rw [s.fault_eq f n st]
      exact ((State.scanAll_scanned _ _).trucks).trans (State.stopFaulty_trucks st)
    · rw [s.fault_unawaited n st none]
      exact ⟨State.sec_stopFaulty st, State.grp_stopFaulty st, State.stopFaulty_otherConvoys st,
        State.stopFaulty_otherTrucks st⟩
  · unfold State.stray State.occupied
    cases (s.sec x).dyn <;> rfl
  · rw [State.overrun, none]
    exact congrArg (fun t => State.fault t c ⟨.overrun, x, 0⟩) (s.occupied_eq none)
  · let w := (s.bothStopped c e x).scanAll (s.bothReleased c e x)
    let a := s.stopFaulty c ⟨.overrun, x, 0⟩
    let mine := w.faultNotice c ⟨.overrun, x, 0⟩ (convoyNumber e)
    have scanned : Scanned (s.bothStopped c e x) w := State.scanAll_scanned _ _
    have frame : KeepsAllBut s w State.reach :=
      ((s.stopFaulty_frame c _).trans (a.stopFaulty_frame e _)).trans scanned.frame
    have owner (d : Conv) : (w.convoy d).owner = (s.convoy d).owner :=
      (State.scanned_owner scanned d).trans ((a.stopFaulty_owner e _ d).trans (s.stopFaulty_owner c _ d))
    have told (d : Conv) : w.recipients (.ownerOf d) = s.recipients (.ownerOf d) := State.owner_recipients frame (owner d)
    have first := State.bothStopped_first (x := x) hm hq hne (s.bothReleased c e x)
    have second := State.bothStopped_second (x := x) hm hq hne (s.bothReleased c e x)
    have passes (d : Conv) : State.Passes w (s.overrun c x) d := by
      rw [s.overrun_held held]
      exact (w.raise_passes _ _ d).trans (mine.raise_passes _ _ d)
    have raised : (s.overrun c x).raised = w.raised
        ++ [⟨⟨.overrun, some c, some x, none, some 0, convoyNumber e⟩, s.recipients (.ownerOf c)⟩]
        ++ [⟨⟨.intruded, some e, some x, none, some (s.countAt e x), convoyNumber c⟩, s.recipients (.ownerOf e)⟩] := by
      rw [s.overrun_held held, ← told c, ← told e]
      rfl
    refine ⟨(first.passed (passes c)).spelled, (second.passed (passes e)).spelled, ?_, ?_, ?_, ?_⟩
    · rw [s.overrun_held held]
      exact (frame.trans ((w.faultNotice_frame c _ _).mono.trans (mine.faultNotice_frame e _ _).mono)).mono
    · rw [s.overrun_held held]
      exact frame.ports
    · rw [raised]
      simp
    · rw [raised]
      simp

end Sys2Proof.Machine
end

section
/-!
SET_ROUTE accepted: O28. The state after the new route is laid (`installRoute`), then what becomes of the entry in a queue.
-/

namespace Sys2Proof.Machine

open Sys2Proof

set_option Elab.async false

/-! ### The parting point (R75 step 1) -/

theorem sharedLength_eq (a b : List Sec) (m : Nat) (shared : ∀ i, i < m → ∃ y, a[i]? = some y ∧ b[i]? = some y)
    (parts : a[m]? = none ∨ b[m]? = none ∨ a[m]? ≠ b[m]?) : sharedLength a b = m := by
  induction a generalizing b m with
  | nil =>
    rcases Nat.eq_zero_or_pos m with rfl | pos
    · rfl
    · obtain ⟨y, hy, -⟩ := shared 0 pos
      simp at hy
  | cons x a ih =>
    cases b with
    | nil =>
      rcases Nat.eq_zero_or_pos m with rfl | pos
      · rfl
      · obtain ⟨y, -, hy⟩ := shared 0 pos
        simp at hy
    | cons z b =>
      unfold sharedLength
      cases m with
      | zero =>
        have differ : x ≠ z := by simpa using parts
        rw [if_neg differ]
      | succ k =>
        obtain ⟨y, hx, hz⟩ := shared 0 k.succ_pos
        have same : x = z := by simp_all
        rw [if_pos same, ih b k (fun i hi => shared (i + 1) (by omega)) parts]

/-- The parting point is the lowest index beyond the head at which the routes differ or one ends. -/
theorem partingPoint_eq {head n : Nat} {old new : List Sec} (beyond : head < n)
    (shared : ∀ i, head < i → i < n → ∃ y, old[i]? = some y ∧ new[i]? = some y)
    (parts : old[n]? = none ∨ new[n]? = none ∨ old[n]? ≠ new[n]?) : partingPoint (head + 1) old new = n := by
  have place : head + 1 + (n - (head + 1)) = n := by omega
  have length := sharedLength_eq (old.drop (head + 1)) (new.drop (head + 1)) (n - (head + 1))
    (fun i hi => by simpa using shared (head + 1 + i) (by omega) (by omega))
    (by simpa only [List.getElem?_drop, place] using parts)
  rw [partingPoint, length, place]

/-- A watch goes on, or begins on the leader's next fork (R83). -/
def Watch.evaluated (w : Watch) : Option Nat → Watch
  | some m => if w.index? = some m then w else .awaiting m
  | none => w

namespace State

variable (s : State) (c : Conv)

/-! ### The route as laid (R75 steps 2 to 5) -/

/-- Steps 2 to 4 of R75: what is parted from is given back, the watch and the Tracker's indices are shifted. -/
def laid (new : List Sec) (rs : List Resource) (n : Nat) : State :=
  ((s.releaseList c rs).modRoad c fun w => { w with route := new, watch := w.watch.parted (s.track c).tail n }).modTrack c
    fun t => t.shifted (s.track c).tail

section
variable (new : List Sec) (rs : List Resource) (n : Nat)

theorem installRoute_eq : s.installRoute c new rs n = ((s.laid c new rs n).updateAllBranches c).evalWatch c := rfl

theorem laid_frame : KeepsAllBut s (s.laid c new rs n) [.interlock, .tracker] :=
  (s.releaseList_frame c rs).mono.trans ((modRoad_frame _ c _).mono.trans (modTrack_frame _ c _).mono)

theorem sec_installRoute (y : Sec) : (s.installRoute c new rs n).sec y =
    { s.sec y with dyn := if GivenBack s c rs y then s.restState y else (s.sec y).dyn } :=
  ((sec_evalWatch _ c y).trans ((updateAllBranches_frame _ c).sec y)).trans (s.sec_releaseList c rs y)

theorem grp_installRoute (g : Grp) : (s.installRoute c new rs n).grp g =
    { s.grp g with holder := if .grp g ∈ rs then none else (s.grp g).holder } :=
  ((grp_evalWatch _ c g).trans ((updateAllBranches_frame _ c).grp g)).trans (s.grp_releaseList c rs g)

theorem queue_installRoute (r : Resource) : (s.installRoute c new rs n).queue r = s.queue r := by
  cases r with
  | sec x => rw [queue_sec, sec_installRoute, queue_sec]
  | grp g => rw [queue_grp, grp_installRoute, queue_grp]

theorem road_laid (d : Conv) : (s.laid c new rs n).road d =
    if d = c then ⟨new, (s.road c).req, (s.road c).watch.parted (s.track c).tail n⟩ else s.road d := by
  have tracked : (s.laid c new rs n).road d = ((s.releaseList c rs).modRoad c fun w =>
      { w with route := new, watch := w.watch.parted (s.track c).tail n }).road d := rfl
  rw [tracked, road_modRoad, road_releaseList, road_releaseList]

theorem track_laid (d : Conv) : (s.laid c new rs n).track d =
    if d = c then (s.track c).shifted (s.track c).tail else s.track d := by
  refine (track_modTrack _ c d _).trans ?_
  have track (e : Conv) : ((s.releaseList c rs).modRoad c fun w =>
      { w with route := new, watch := w.watch.parted (s.track c).tail n }).track e = s.track e :=
    (s.releaseList_frame c rs).track e
  rw [track, track]

theorem road_installRoute (d : Conv) : (s.installRoute c new rs n).road d = if d = c then
      ⟨new, (s.road c).req, ((s.laid c new rs n).updateAllBranches c).watchAfter c⟩ else s.road d := by
  have road (e : Conv) : ((s.laid c new rs n).updateAllBranches c).road e = (s.laid c new rs n).road e :=
    (updateAllBranches_frame _ c).road e
  rw [installRoute_eq, road_evalWatch, road, road, road_laid, road_laid]
  split <;> simp

theorem track_installRoute (d : Conv) : (s.installRoute c new rs n).track d =
    if d = c then (s.track c).shifted (s.track c).tail else s.track d := by
  rw [installRoute_eq, (evalWatch_frame _ c).track, (updateAllBranches_frame _ c).track, track_laid]

theorem installRoute_cvt : (s.installRoute c new rs n).cvt = s.cvt := (s.installRoute_frame c new rs n).cvt

/-- The new route is laid, and the watch is evaluated. -/
theorem road_installRoute_self : (s.installRoute c new rs n).road c =
    ⟨new, (s.road c).req,
      ((s.road c).watch.parted (s.track c).tail n).evaluated ((s.installRoute c new rs n).watchable c)⟩ := by
  have road : ((s.laid c new rs n).updateAllBranches c).road c
      = ⟨new, (s.road c).req, (s.road c).watch.parted (s.track c).tail n⟩ := by
    rw [(updateAllBranches_frame _ c).road, road_laid, if_pos rfl]
  rw [road_installRoute, if_pos rfl, installRoute_eq, watchable_evalWatch, watchAfter, road]
  cases ((s.laid c new rs n).updateAllBranches c).watchable c <;> rfl

theorem installRoute_branch (hc : (truckAddrs (s.members c)).Nodup) {w : Unit} (hw : w ∈ s.unitsFor c) :
    ((s.installRoute c new rs n).radio w.truck).branch = ((s.installRoute c new rs n).branchFor c
      (((s.installRoute c new rs n).track c).position w.first)).getD (s.radio w.truck).branch := by
  let u := s.laid c new rs n
  have frame : KeepsAllBut s u [.interlock, .tracker] := s.laid_frame c new rs n
  have branches := u.updateAllBranches_branch c (by rwa [frame.members]) (by rwa [unitsFor, frame.members])
  have map : (s.installRoute c new rs n).map = u.map := (s.installRoute_frame c new rs n).map.trans frame.map.symm
  have route : ((s.installRoute c new rs n).road c).route = (u.road c).route := by
    rw [road_installRoute, if_pos rfl, road_laid, if_pos rfl]
  have track : (s.installRoute c new rs n).track c = u.track c := by
    rw [track_installRoute, if_pos rfl, track_laid, if_pos rfl]
  rw [branchFor_congr map route, track, ← frame.radio]
  exact (evalWatch_radio _ c _).1.trans branches

/-- What a laid route leaves for requests and grants does not depend on the ports. -/
theorem installRoute_ports {s v : State} (h : KeepsAllBut s v [.consolePorts]) :
    SameRoads (s.installRoute c new rs n) (v.installRoute c new rs n)
      ∧ (v.installRoute c new rs n).road c = (s.installRoute c new rs n).road c
      ∧ ∀ d, (v.installRoute c new rs n).track d = (s.installRoute c new rs n).track d := by
  have fa := s.installRoute_frame c new rs n
  have fb := v.installRoute_frame c new rs n
  have map : (v.installRoute c new rs n).map = (s.installRoute c new rs n).map := fb.map.trans (h.map.trans fa.map.symm)
  have sec (y : Sec) : (v.installRoute c new rs n).sec y = (s.installRoute c new rs n).sec y := by
    have given : GivenBack v c rs y ↔ GivenBack s c rs y := by
      unfold GivenBack
      rw [h.holds, h.map]
    rw [sec_installRoute, sec_installRoute, h.sec, restState_congr h.map (by rw [h.sec])]
    simp only [given]
  have track (d : Conv) : (v.installRoute c new rs n).track d = (s.installRoute c new rs n).track d := by
    rw [track_installRoute, track_installRoute, h.track, h.track]
  have parts (d : Conv) : ((v.installRoute c new rs n).road d).route = ((s.installRoute c new rs n).road d).route
      ∧ ((v.installRoute c new rs n).road d).req = ((s.installRoute c new rs n).road d).req := by
    rw [road_installRoute, road_installRoute, h.road, h.road]
    split
    · exact ⟨rfl, rfl⟩
    · exact ⟨rfl, rfl⟩
  have watchable : (v.installRoute c new rs n).watchable c = (s.installRoute c new rs n).watchable c :=
    watchable_congr map (parts c).1 (by rw [track]) fun x => holds_congr (by rw [sec]) c
  refine ⟨⟨map, fb.hls.trans (h.hls.trans fa.hls.symm), fun d => ?_, fun d => by rw [track], sec, fun g => ?_,
    fun d => (parts d).2, fun d => (parts d).1⟩, ?_, track⟩
  · rw [fb.convoy, fa.convoy, h.convoy]
  · rw [grp_installRoute, grp_installRoute, h.grp]
  · rw [road_installRoute_self, road_installRoute_self, watchable, h.road, h.track]

end

/-! ### The entry in a queue (R75 steps 6 and 7) -/

theorem keptEntry_eq_some (r : Resource) (k : Nat) (y : Sec) : s.keptEntry c = some (r, k, y) ↔
    (s.road c).req = .queued r ∧ s.nextIndex c = some (k, y) ∧ s.map.resourceOf y = r
      ∧ k ≤ (s.track c).head + (s.convoy c).params.look := by
  unfold keptEntry
  cases (s.road c).req with
  | idle => simp
  | refused => simp
  | queued q =>
    cases s.nextIndex c with
    | none => simp
    | some kx =>
      obtain ⟨i, x⟩ := kx
      dsimp only
      split
      · rename_i fits
        simp only [Option.some.injEq, Prod.mk.injEq, ReqState.queued.injEq]
        constructor
        · rintro ⟨rfl, rfl, rfl⟩
          exact ⟨rfl, ⟨rfl, rfl⟩, fits⟩
        · rintro ⟨rfl, ⟨rfl, rfl⟩, -⟩
          exact ⟨rfl, rfl, rfl⟩
      · rename_i unfit
        simp only [reduceCtorEq, Option.some.injEq, Prod.mk.injEq, ReqState.queued.injEq, false_iff]
        rintro ⟨rfl, ⟨rfl, rfl⟩, fits⟩
        exact unfit fits

/-- Where nobody waits for the other resources, scans of several are the scan of one. -/
theorem scanAll_one (r : Resource) (rs : List Resource) (h : ∀ y ∈ rs, y ≠ r → s.queue y = []) :
    s.scanAll (r :: rs.filter fun y => y != r) = s.scan r := by
  have others : (rs.filter fun y => y != r).filter (fun y => !(s.queue y).isEmpty) = [] := by
    refine List.filter_eq_nil_iff.mpr fun y hy => ?_
    obtain ⟨mem, other⟩ := List.mem_filter.mp hy
    simp [h y mem (by simpa using other)]
  unfold scanAll
  by_cases empty : s.queue r = []
  · rw [List.filter_cons_of_neg (by simp [empty]), others, s.scan_idle r empty]
    rfl
  · rw [List.filter_cons_of_pos (by simpa using empty), others]
    rfl

theorem leaveArrived_convoy : (s.leaveArrived c).convoy c =
    if (s.convoy c).state = .arrived then { s.convoy c with state := .standing } else s.convoy c := by
  unfold leaveArrived
  split
  · rw [setState, convoy_modConvoy, if_pos rfl]
  · rfl

theorem leaveArrived_trucks : (s.leaveArrived c).cvt.trucks = s.cvt.trucks := by
  unfold leaveArrived
  split <;> rfl

theorem requestIfWaiting_scanned : Scanned s (s.requestIfWaiting c) := by
  unfold requestIfWaiting
  split
  · exact s.request_scanned c
  · exact .refl s

/-- The end of SET_ROUTE is a change of queues, ARRIVED left, and scans and requests. -/
theorem finishRoute_scanned (rs : List Resource) : ∃ a : State, KeepsAllBut s a [.interlock]
    ∧ (∀ d, (a.road d).route = (s.road d).route) ∧ Scanned (a.leaveArrived c) (s.finishRoute c rs) := by
  unfold finishRoute
  split
  · rename_i r k x _
    exact ⟨s.updateEntry c r k x, s.modQueue_frame r _, fun d => by rw [updateEntry, road_modQueue], scanAll_scanned _ _⟩
  · refine ⟨s.withdraw c, s.withdraw_frame c, fun d => ?_, (scanAll_scanned _ _).trans (requestIfWaiting_scanned _ c)⟩
    rw [road_withdraw]
    split
    · rename_i hd
      rw [hd]
    · rfl

/-- What the end of SET_ROUTE makes of the convoy. -/
structure Rerouted (s t : State) : Prop where
  route : (t.road c).route = (s.road c).route
  track : t.track c = { s.track c with units := (t.track c).units }
  waits : (s.convoy c).state = .waiting → t.convoy c = s.convoy c ∨ t.convoy c = { s.convoy c with state := .rolling }
  stands : (s.convoy c).state ∈ [ConvoyState.standing, .arrived] →
    t.convoy c = { s.convoy c with state := .standing } ∧ (t.track c).units = (s.track c).units
  trucks : t.cvt.trucks = s.cvt.trucks

theorem finishRoute_rerouted (rs : List Resource) : Rerouted c s (s.finishRoute c rs) := by
  obtain ⟨a, frame, routes, scanned⟩ := s.finishRoute_scanned c rs
  have left := a.leaveArrived_frame c
  have convoy : (a.leaveArrived c).convoy c =
      if (s.convoy c).state = .arrived then { s.convoy c with state := .standing } else s.convoy c := by
    rw [leaveArrived_convoy, frame.convoy]
  have track : (a.leaveArrived c).track c = s.track c := (left.track c).trans (frame.track c)
  refine ⟨?_, ?_, fun st => ?_, fun st => ?_, ?_⟩
  · rw [scanned.route, left.road, routes]
  · rw [scanned.track, track]
  · rw [if_neg (by simp [st])] at convoy
    rcases scanned.convoy c with k | ⟨-, k⟩
    · exact .inl (k.trans convoy)
    · exact .inr (by rw [k, convoy])
  · have stands : (a.leaveArrived c).convoy c = { s.convoy c with state := .standing } := by
      rw [convoy]
      split
      · rfl
      · rename_i other
        have standing : (s.convoy c).state = .standing := by simpa [other] using st
        rw [← standing]
    have still : ((a.leaveArrived c).convoy c).state ≠ .waiting := by simp [stands]
    exact ⟨(scanned.convoy_moving still).trans stands, by rw [scanned.units c still, track]⟩
  · rw [scanned.trucks, leaveArrived_trucks, frame.cvt]

theorem queue_updateEntry (r : Resource) (k : Nat) (x : Sec) (y : Resource) (h : y ≠ r) :
    (s.updateEntry c r k x).queue y = s.queue y := by
  rw [updateEntry, queue_modQueue, if_neg h]

/-- Where nobody waits for what the route gave back, a kept entry is scanned for alone. -/
theorem finishRoute_kept_eq {rs : List Resource} {r : Resource} {k : Nat} {x : Sec} (h : s.keptEntry c = some (r, k, x))
    (none : ∀ y ∈ rs, s.queue y = []) : s.finishRoute c rs = ((s.updateEntry c r k x).leaveArrived c).scan r := by
  unfold finishRoute
  rw [h]
  refine scanAll_one _ r rs fun y hy other => ?_
  rw [(leaveArrived_frame _ c).queue, queue_updateEntry s c r k x y other, none y hy]

/-- Where nobody waits for what the route gave back, the withdrawal is followed by the convoy's request alone. -/
theorem finishRoute_withdrawn_eq {rs : List Resource} (h : s.keptEntry c = none) (none : ∀ y ∈ rs, s.queue y = []) :
    s.finishRoute c rs = ((s.withdraw c).leaveArrived c).requestIfWaiting c := by
  unfold finishRoute
  rw [h]
  dsimp only
  rw [scanAll_idle]
  intro y hy
  rw [(leaveArrived_frame _ c).queue, queue_withdraw, queueWithout, none y hy]
  split <;> rfl

/-! ### The whole acceptance (R75) -/

theorem withdraw_sameRoads {s t : State} (h : SameRoads s t) : SameRoads (s.withdraw c) (t.withdraw c) := by
  unfold withdraw
  rw [h.req]
  cases (s.road c).req with
  | idle => exact h
  | refused => exact h.setReq c .idle
  | queued r => exact (h.modQueue r _).setReq c .idle

/-- An effect on the convoys' states alone is seen by no scan. -/
theorem firstEligible_of_frame {s t : State} (h : KeepsAllBut s t [.convoyTable]) (r : Resource) (e : Entry) :
    t.firstEligible r e ↔ s.firstEligible r e := by
  have elig (f : Entry) : t.eligible r f = s.eligible r f := by
    cases r with
    | sec x => simp only [eligible, endsHere, h.sec, h.road]
    | grp g => simp only [eligible, groupFree, h.sec, h.grp, h.map]
  simp only [firstEligible, h.hls, h.queue, elig]

section
variable {c} {v u t : State} {rs : List Resource} (same : SameRoads v u) (none : ∀ y ∈ rs, u.queue y = [])
  (ends : KeepsAllBut (u.finishRoute c rs) t [.consolePorts])
include same none ends

theorem keptEntry_scanned {r : Resource} {k : Nat} {y : Sec} (entry : v.keptEntry c = some (r, k, y)) :
    ((∀ e, ¬ (v.updateEntry c r k y).firstEligible r e) →
      (t.road c).req = .queued r ∧ ∀ z, t.queue z = (v.updateEntry c r k y).queue z)
    ∧ ∀ e, (v.updateEntry c r k y).firstEligible r e → t.heldWhole e.conv r := by
  have kept : u.keptEntry c = some (r, k, y) := by
    rw [← entry]
    simp only [keptEntry, same.req, same.nextIndex, same.map, same.head, same.convoy]
  have alike : SameRoads (v.updateEntry c r k y) (u.updateEntry c r k y) := same.modQueue r _
  have left := (u.updateEntry c r k y).leaveArrived_frame c
  have first (e : Entry) : ((u.updateEntry c r k y).leaveArrived c).firstEligible r e
      ↔ (v.updateEntry c r k y).firstEligible r e := (firstEligible_of_frame left r e).trans (alike.firstEligible r e)
  rw [u.finishRoute_kept_eq c kept none] at ends
  refine ⟨fun idle => ?_, fun e elig => ?_⟩
  · rw [scan_none _ fun e => mt (first e).mp (idle e)] at ends
    refine ⟨?_, fun z => ?_⟩
    · rw [ends.road, left.road, alike.req, updateEntry, road_modQueue]
      exact ((v.keptEntry_eq_some c r k y).mp entry).1
    · rw [ends.queue, left.queue, alike.queue]
  · exact heldWhole_mono ends.map (fun x h => (ends.secHolder x).trans h) (fun g h => by rwa [ends.grp])
      (heldWhole_scan _ ((first e).mpr elig))

theorem withdrawn_rests (entry : v.keptEntry c = .none) (state : (u.convoy c).state ≠ .waiting) :
    t.road c = { u.road c with req := .idle } ∧ (∀ z, t.queue z = u.queueWithout c z)
      ∧ ∀ y, (t.sec y).dyn = (u.sec y).dyn := by
  have kept : u.keptEntry c = .none := by
    rw [← entry]
    simp only [keptEntry, same.req, same.nextIndex, same.map, same.head, same.convoy]
  have left := (u.withdraw c).leaveArrived_frame c
  have still : ¬ (((u.withdraw c).leaveArrived c).convoy c).state = .waiting := by
    rw [leaveArrived_convoy, (u.withdraw_frame c).convoy]
    split
    · simp
    · exact state
  rw [u.finishRoute_withdrawn_eq c kept none, requestIfWaiting, if_neg still] at ends
  refine ⟨?_, fun z => ?_, fun y => ?_⟩
  · rw [ends.road, left.road, road_withdraw, if_pos rfl]
  · rw [ends.queue, left.queue, queue_withdraw]
  · rw [ends.sec, left.sec, dyn_withdraw]

theorem withdrawn_requests (entry : v.keptEntry c = .none) (state : (u.convoy c).state = .waiting) :
    Requested (v.withdraw c) t c := by
  have kept : u.keptEntry c = .none := by
    rw [← entry]
    simp only [keptEntry, same.req, same.nextIndex, same.map, same.head, same.convoy]
  have waits : ((u.withdraw c).convoy c).state = .waiting := by rw [(u.withdraw_frame c).convoy, state]
  rw [u.finishRoute_withdrawn_eq c kept none, leaveArrived, if_neg (by simp [waits]), requestIfWaiting, if_pos waits] at ends
  exact (withdraw_sameRoads c same).requested (((u.withdraw c).requested_request c).of_sil ends.sil ends.map)

end

theorem setRoute_eq {s v : State} (h : KeepsAllBut s v [.consolePorts]) {l : List Sec} {n : Nat}
    (hp : partingPoint ((s.track c).head - (s.track c).tail + 1) ((s.road c).route.drop (s.track c).tail) l = n) :
    v.setRoute c l = (v.installRoute c l (s.partedFrom c ((s.road c).route.drop (s.track c).tail) l n) n).finishRoute c
      (s.partedFrom c ((s.road c).route.drop (s.track c).tail) l n) := by
  have record (x : Sec) : v.sectionRec x = s.sectionRec x := congrArg (fun m : LayoutMap => m.sections.nth x) h.map
  have alone : v.holdsAlone c = s.holdsAlone c :=
    funext fun x => by simp only [holdsAlone, h.holds, record]
  have parted (old : List Sec) : v.partedFrom c old l n = s.partedFrom c old l n := by
    simp only [partedFrom, alone, heldGroups, h.grp, record]
  unfold setRoute
  rw [h.road, h.track]
  dsimp only
  rw [hp, parted]

theorem queueWithout_congr {s t : State} {c : Conv} {r : Resource} (hr : (t.road c).req = (s.road c).req)
    (hq : t.queue r = s.queue r) : t.queueWithout c r = s.queueWithout c r := by
  rw [queueWithout, queueWithout, hr, hq]

theorem routable_still {st : ConvoyState} (h : st ∈ [ConvoyState.standing, .waiting, .arrived]) (hw : st ≠ .waiting) :
    st ∈ [ConvoyState.standing, .arrived] := by cases st <;> simp_all

theorem track_shifted (k : Track) : k.shifted k.tail =
    { k with head := k.head - k.tail, tail := 0, records := k.records.map fun r => { r with j := r.j - k.tail } } := by
  rw [Track.shifted, Nat.sub_self]

end State

/-- SET_ROUTE accepted ends in `finishRoute` of a state that differs from `installRoute` in ports and frame marks alone. -/
theorem setRoute_accepted {s : State} {p : Port} {tag b : Byte} {rest : List Byte} {c : Conv} {l : List Sec} {x : Sec}
    {n : Nat} {gone : List Resource} (hs : Serves s p) (hn : s.named p b = some c) (ho : s.owns p c = true)
    (hr : routeArg rest = some l) (hx : l.getLast? = some x)
    (state : (s.convoy c).state ∈ [ConvoyState.standing, .waiting, .arrived])
    (valid : s.map.routeFails (s.occupiedRun c) l = none)
    (long : convoyLength (s.members c) (s.convoy c).params.standGap ≤ (s.sectionRec x).length)
    (point : partingPoint ((s.track c).head - (s.track c).tail + 1) ((s.road c).route.drop (s.track c).tail) l = n)
    (hg : gone = s.partedFrom c ((s.road c).route.drop (s.track c).tail) l n) : ∃ u t : State,
    SameRoads (s.installRoute c l gone n) u ∧ u.road c = (s.installRoute c l gone n).road c
      ∧ (∀ d, u.track d = (s.installRoute c l gone n).track d) ∧ u.cvt = s.cvt
      ∧ exec (.setRoute p tag (b :: rest)) s = .next t ∧ KeepsAllBut (u.finishRoute c gone) t [.consolePorts]
      ∧ KeepsAllBut s t roadBlocks := by
  let last := s.lastAfter p b c
  have seen : KeepsAllBut s (s.sees p last) [.consolePorts] := s.sees_frame p last
  have accepted := (State.routeRequest_some (s.sees p last) p c ho hr).trans
    ((State.routeWith_valid (s.sees p last) c state valid hx).trans (if_neg (Nat.not_lt.mpr long)))
  have reaches := s.serve_convoy { code := 0x20 } tag rest (fun s c rest => s.routeRequest p c rest) hs hn rfl
    (s.notOwner_of_owns ho)
  obtain ⟨t, event, ends, frame, -⟩ := State.convoyOk_ends { code := 0x20 } tag c
    (State.setRoute_frame (s.sees p last) c (l := l)) rfl
  obtain ⟨same, road, track⟩ := State.installRoute_ports c l gone n seen
  rw [State.setRoute_eq c seen point, ← hg] at ends
  refine ⟨(s.sees p last).installRoute c l gone n, t, same, road, track, ?_, ?_, ends, frame.mono⟩
  · rw [State.installRoute_cvt, seen.cvt]
  · refine congrArg Host.Outcome.next (reaches.trans ?_)
    rw [accepted]
    exact event

/-- Settles O28: the laid route field by field (`installRoute`), then the two ways its queue entry goes
(`finishRoute_kept_eq`, `finishRoute_withdrawn_eq`). -/
theorem setRouteReplacesTheRoute : Obligations.SetRouteReplacesTheRoute := by
  intro s p tag b rest c l x n hs hn ho hr hx state valid long tail head old beyond shared parts gone kept shifted v
  have point : partingPoint (head + 1) old l = n := partingPoint_eq beyond shared parts
  have watch : shifted = (s.road c).watch.parted tail n := by
    dsimp only [shifted]
    unfold Watch.parted
    cases (s.road c).watch <;> rfl
  have frame := s.installRoute_frame c l gone n
  have vtrack := s.track_installRoute c l gone n
  refine ⟨⟨s.sec_installRoute c l gone n, s.grp_installRoute c l gone n, ?_, ?_, fun hc w hw => ?_, fun d hd => ?_,
    frame.convoy c, frame⟩, fun r k y => ?_, ?_⟩
  · have road : v.road c = ⟨l, (s.road c).req, shifted.evaluated (v.watchable c)⟩ := by
      rw [watch]
      exact s.road_installRoute_self c l gone n
    rw [road]
    generalize v.watchable c = fork
    cases fork <;> rfl
  · rw [vtrack, if_pos rfl, State.track_shifted]
  · exact s.installRoute_branch c l gone n hc hw
  · exact ⟨frame.convoy d, by rw [State.road_installRoute, if_neg hd], by rw [vtrack, if_neg hd]⟩
  · have entry := v.keptEntry_eq_some c r k y
    have reads : (v.road c).req = (s.road c).req ∧ (v.track c).head = head :=
      ⟨by rw [State.road_installRoute, if_pos rfl], by rw [vtrack, if_pos rfl]; rfl⟩
    have map : v.map = s.map := frame.map
    have convoy : v.convoy c = s.convoy c := frame.convoy c
    rwa [reads.1, reads.2, map, convoy] at entry
  obtain ⟨u, t, same, road, track, table, event, ends, whole⟩ := setRoute_accepted (tag := tag) (gone := gone) hs hn
    ho hr hx state valid long point rfl
  have done := u.finishRoute_rerouted c gone
  have convoy : u.convoy c = s.convoy c := congrArg (fun k => Tab.nth (ConvoyTable.convoys k) c) table
  have route : (v.road c).route = l := by rw [State.road_installRoute, if_pos rfl]
  have queue (z : Resource) : u.queue z = s.queue z := (same.queue z).trans (s.queue_installRoute c l gone n z)
  refine ⟨t, event, ?_, ?_, fun waits => ?_, fun stands => ?_, ?_, whole, fun none => ⟨fun r k y entry => ?_, fun entry => ?_⟩⟩
  · rw [ends.road, done.route, road, route]
  · rw [ends.track, done.track, track]
  · rw [ends.convoy, ← convoy]
    exact done.waits (by rw [convoy, waits])
  · have still := State.routable_still state stands
    obtain ⟨moved, units⟩ := done.stands (by rwa [convoy])
    rw [ends.convoy, ends.track, moved, units, convoy, track, vtrack, if_pos rfl]
    exact ⟨rfl, rfl⟩
  · rw [ends.cvt, done.trucks, table]
  · exact State.keptEntry_scanned same (fun y hy => (queue y).trans (none y hy)) ends entry
  · have empty (y : Resource) (hy : y ∈ gone) : u.queue y = [] := (queue y).trans (none y hy)
    refine ⟨fun stands => ?_, fun waits => ?_⟩
    · obtain ⟨roads, queues, dyns⟩ := State.withdrawn_rests same empty ends entry (by rwa [convoy])
      have request : (u.road c).req = (s.road c).req := by rw [road, State.road_installRoute, if_pos rfl]
      refine ⟨by rw [roads, road], fun z => ?_, fun y => by rw [dyns, same.sec]⟩
      exact (queues z).trans (State.queueWithout_congr request (queue z))
    · exact State.withdrawn_requests same empty ends entry (by rw [convoy, waits])

end Sys2Proof.Machine
end

section
/-!
SUPPORT. What the units' steps leave as it is (R107, R108), and the release behind a tail (R86, R87).
-/

namespace Sys2Proof.Machine

open Sys2Proof

set_option Elab.async false

namespace State

variable (s : State)

/-! ### Units step by step (R107, R108) -/

/-- Run states and speeds of follower units of convoy `c` have changed, and nothing that they rest on. -/
structure Stepped (s t : State) (c : Conv) : Prop where
  same : SameUnits s t c
  others : ∀ d, d ≠ c → t.track d = s.track d
  speeds : ∀ a, (∀ u, 1 ≤ u → s.unitTruck? c u ≠ some a) → t.speed a = s.speed a

theorem Stepped.refl (c : Conv) : Stepped s s c := ⟨.refl s c, fun _ _ => rfl, fun _ _ => rfl⟩

section
variable {s} {t u : State} {c : Conv}

theorem Stepped.trans (h : Stepped s t c) (k : Stepped t u c) : Stepped s u c where
  same := h.same.trans k.same
  others d hd := (k.others d hd).trans (h.others d hd)
  speeds a ha := (k.speeds a fun i hi => by rw [h.same.unitTruck]; exact ha i hi).trans (h.speeds a ha)

theorem Stepped.ite {p : Prop} [Decidable p] (h : Stepped s t c) (k : Stepped s u c) : Stepped s (if p then t else u) c := by
  split
  · exact h
  · exact k

theorem Stepped.forEach {α : Type} {f : State → α → State} {l : List α} (h : ∀ t, ∀ a ∈ l, Stepped t (f t a) c) :
    Stepped s (s.forEach l f) c :=
  forEach_inv_mem (fun t => Stepped s t c) f s l (fun t a ha ht => ht.trans (h t a ha)) (.refl s c)

end

section
variable (c : Conv)

theorem setUnit_stepped (u : Nat) (r : RunState) : Stepped s (s.setUnit c u r) c :=
  ⟨s.setUnit_same c u r, fun _ hd => s.setUnit_track_other hd u r, fun a _ => (s.setUnit_frame c u r).speed a⟩

theorem hardStop_stepped {u : Nat} (hu : 1 ≤ u) {a : Addr} (ha : s.unitTruck? c u = some a) :
    Stepped s (s.hardStop a) c := by
  have frame := s.hardStop_frame a
  refine ⟨⟨frame.hls, frame.map, frame.road c, frame.convoy c, by rw [frame.track]⟩, fun d _ => frame.track d, fun b hb => ?_⟩
  refine ((s.hardStop_spec a).2 b fun e => hb u hu ?_).1
  rw [ha, e]

theorem standUnit_stepped {u : Nat} (hu : 1 ≤ u) : Stepped s (s.standUnit c u) c := by
  refine (s.setUnit_stepped c u .down).trans ?_
  unfold standUnit
  dsimp only
  split
  · rename_i a ha
    exact hardStop_stepped _ c hu ha
  · exact .refl _ c

theorem restartUnit_stepped {u : Nat} (hu : 1 ≤ u) : Stepped s (s.restartUnit c u) c := by
  refine ⟨s.restartUnit_same c u, fun d hd => ?_, fun a ha => ?_⟩
  · rw [restartUnit_eq]
    dsimp only
    split
    · rw [setUnit_track_other _ hd, spedUnit_track]
    · rw [spedUnit_track]
  · rw [restartUnit_eq]
    dsimp only
    split
    · rw [(setUnit_frame _ c u _).speed, spedUnit_speed, if_neg (ha u hu)]
    · rw [spedUnit_speed, if_neg (ha u hu)]

theorem standDown_stepped : Stepped s (s.standDown c) c := by
  refine .forEach fun t u hu => ?_
  have one : 1 ≤ u := ((s.mem_followers c u).mp hu).1
  exact .ite (t.standUnit_stepped c one) (.ite (t.setUnit_stepped c u _) (.refl t c))

theorem standRest_stepped : Stepped s (s.standRest c) c := by
  refine .forEach fun t u hu => ?_
  exact .ite (.refl t c) (t.standUnit_stepped c ((s.mem_followers c u).mp hu).1)

theorem unitSteps_stepped (k j : Nat) {u : Nat} (hu : 1 ≤ u) : Stepped s (s.unitSteps c k j u) c := by
  have stands (t : State) : Stepped t (t.standDownStep c k j u) c := .ite (t.standUnit_stepped c hu) (.refl t c)
  have restarts (t : State) : Stepped t (t.restartStep c k u) c := .ite (t.restartUnit_stepped c hu) (.refl t c)
  have stops (t : State) : Stepped t (t.stoppedAheadStep c k u) c := .ite (t.setUnit_stepped c u _) (.refl t c)
  exact ((stands s).trans (restarts _)).trans (stops _)

/-- The steps after a passage reach follower units alone. -/
theorem afterPassage_stepped (k j : Nat) : Stepped s (s.afterPassage c k j) c :=
  .forEach fun t _ hu => t.unitSteps_stepped c k j ((s.mem_followers c _).mp hu).1

/-- The steps of the followers leave the leader's speed. -/
theorem Stepped.leader {s t : State} {c : Conv} (h : Stepped s t c) (hc : (truckAddrs (s.members c)).Nodup) {a : Addr}
    (ha : s.leader? c = some a) : t.speed a = s.speed a :=
  h.speeds a fun _ hu k => s.leader_ne_follower hc hu k ha

end

/-! ### The release behind a tail (R86, R87) -/

section
variable (c : Conv)

theorem sec_clearFor (ms : Nat) (x y : Sec) : (s.clearFor c ms x).sec y =
    { s.sec y with dyn := if y = x ∧ s.holds c y = true then .clearing ms else (s.sec y).dyn } := by
  unfold clearFor
  by_cases held : s.holds c x = true
  · rw [if_pos held]
    by_cases hy : y = x
    · subst hy
      simp [held]
    · simp [hy]
  · rw [if_neg held, if_neg]
    rintro ⟨rfl, k⟩
    exact held k

theorem holds_clearFor (ms : Nat) (x y : Sec) : (s.clearFor c ms x).holds c y = true ↔ s.holds c y = true ∧ y ≠ x := by
  rw [holds_iff, holds_iff, sec_clearFor]
  dsimp only
  by_cases given : y = x ∧ s.holds c y = true
  · rw [if_pos given]
    simp [given.1]
  · rw [if_neg given]
    exact ⟨fun k => ⟨k, fun e => given ⟨e, (s.holds_iff c y).mpr k⟩⟩, fun k => k.1⟩

theorem sec_clearAll (ms : Nat) (l : List Sec) (y : Sec) : (s.forEach l fun s x => s.clearFor c ms x).sec y =
    { s.sec y with dyn := if y ∈ l ∧ s.holds c y = true then .clearing ms else (s.sec y).dyn } := by
  induction l generalizing s with
  | nil => simp
  | cons x l ih =>
    simp only [forEach_cons, ih, holds_clearFor, sec_clearFor, List.mem_cons]
    by_cases hy : y = x
    · simp [hy]
    · simp [hy]

theorem grp_clearFor (ms : Nat) (x : Sec) (g : Grp) : (s.clearFor c ms x).grp g = s.grp g := by
  unfold clearFor
  split <;> rfl

theorem roads_clearFor (ms : Nat) (x : Sec) : (s.clearFor c ms x).sil.roads = s.sil.roads := by
  unfold clearFor
  split <;> rfl

theorem sec_releaseGroup (g : Grp) (y : Sec) : (s.releaseGroup c g).sec y = { s.sec y with
    dyn := if y ∈ s.map.listed g ∧ s.holds c y = true then .clearing (s.map.groupHoldTime g) else (s.sec y).dyn } :=
  sec_clearAll (s.modGrp g fun q => { q with holder := none }) c _ _ y

theorem holder_releaseGroup (g : Grp) : ((s.releaseGroup c g).grp g).holder = none := by
  refine (congrArg Group.holder (forEach_keeps (fun t => t.grp g) (fun t x => t.clearFor c _ x)
    (fun t x => t.grp_clearFor c _ x g) _ _)).trans ?_
  simp

section
variable {s} {t : State} (h : SameRoads s t)
include h

theorem modSec_sameRoads (x : Sec) (f : Section → Section) : SameRoads (s.modSec x f) (t.modSec x f) :=
  ⟨h.map, h.hls, h.convoy, h.head, fun y => by simp only [State.sec_modSec, h.sec], h.grp, h.req, h.route⟩

theorem modGrp_sameRoads (g : Grp) (f : Group → Group) : SameRoads (s.modGrp g f) (t.modGrp g f) :=
  ⟨h.map, h.hls, h.convoy, h.head, h.sec, fun y => by simp only [State.grp_modGrp, h.grp], h.req, h.route⟩

theorem clearFor_sameRoads (ms : Nat) (x : Sec) : SameRoads (s.clearFor c ms x) (t.clearFor c ms x) := by
  unfold clearFor
  rw [h.holds]
  split
  · exact modSec_sameRoads h x _
  · exact h

theorem releaseGroup_sameRoads (g : Grp) : SameRoads (s.releaseGroup c g) (t.releaseGroup c g) := by
  unfold releaseGroup
  rw [h.map]
  dsimp only
  have freed := modGrp_sameRoads h g fun q => { q with holder := none }
  generalize s.map.listed g = l at *
  generalize s.modGrp g _ = a at *
  generalize t.modGrp g _ = b at *
  induction l generalizing a b with
  | nil => exact freed
  | cons x l ih => exact ih _ _ (clearFor_sameRoads c freed _ x)

/-- What a tail leaves is read in the road alone. -/
theorem tailLeft_sameRoads (j : Nat) : SameRoads (s.tailLeft c j) (t.tailLeft c j) := by
  have at_j : t.routeAt c j = s.routeAt c j := by rw [routeAt, routeAt, h.route]
  have record (x : Sec) : t.sectionRec x = s.sectionRec x := congrArg (fun m : LayoutMap => m.sections.nth x) h.map
  have above (g : Grp) : t.groupAbove c g j = s.groupAbove c g j := by simp only [groupAbove, h.route, record]
  unfold tailLeft
  rw [at_j]
  cases s.routeAt c j with
  | none => exact h
  | some x =>
    simp only [record, above, h.grp, h.map]
    cases (s.sectionRec x).group with
    | none => exact clearFor_sameRoads c h _ x
    | some g =>
      dsimp only
      split
      · exact h
      · split
        · exact releaseGroup_sameRoads c h g
        · exact h

end

end

end State

end Sys2Proof.Machine
end

section
/-!
A leader crossing: O42. The head's advance up to the request for road, then the target and the entry of WAITING.
-/

namespace Sys2Proof.Machine

open Sys2Proof

set_option Elab.async false

theorem SameRoads.trans {s t u : State} (h : SameRoads s t) (k : SameRoads t u) : SameRoads s u :=
  ⟨k.map.trans h.map, k.hls.trans h.hls, fun d => (k.convoy d).trans (h.convoy d), fun d => (k.head d).trans (h.head d),
    fun x => (k.sec x).trans (h.sec x), fun g => (k.grp g).trans (h.grp g), fun d => (k.req d).trans (h.req d),
    fun d => (k.route d).trans (h.route d)⟩

namespace State

variable (s : State) (c : Conv)

/-! ### The tail of a convoy that is not ARRIVING (R101 step 6) -/

theorem checkArrived_other (h : (s.convoy c).state ≠ .arriving) : s.checkArrived c = s := if_neg fun k => h k.1

/-- The tail stands at boundary `j`, whose record is removed. -/
def tailAt (j : Nat) : State := s.modTrack c fun t => { t with tail := j, records := t.records.filter fun q => q.j != j }

/-- The record at boundary `j` is complete, and next to the tail (R101 step 6). -/
def TailMoves (j : Nat) : Prop :=
  ∃ r, (s.track c).record? j = some r ∧ r.n = s.memberCount c ∧ j = (s.track c).tail + 1

theorem advanceTail_moves {j : Nat} (h : s.TailMoves c j) :
    s.advanceTail c j = ((s.tailAt c j).tailLeft c (j - 1)).checkArrived c := by
  obtain ⟨r, record, moves⟩ := h
  unfold advanceTail
  rw [record]
  exact if_pos moves

theorem advanceTail_stays {j : Nat} (h : ¬ s.TailMoves c j) : s.advanceTail c j = s := by
  unfold advanceTail
  cases record : (s.track c).record? j with
  | none => rfl
  | some r => exact if_neg fun moves => h ⟨r, record, moves⟩

theorem tailAt_left_frame (j : Nat) : KeepsAllBut s ((s.tailAt c j).tailLeft c (j - 1)) [.interlock, .tracker] :=
  (s.modTrack_frame c _).mono.trans (tailLeft_frame _ c _).mono

/-- Outside ARRIVING the tail moves, and the road behind it is left. -/
theorem advanceTail_moving {j : Nat} (h : s.TailMoves c j) (st : (s.convoy c).state ≠ .arriving) :
    s.advanceTail c j = (s.tailAt c j).tailLeft c (j - 1) := by
  rw [advanceTail_moves s c h]
  exact checkArrived_other _ c (by rwa [(s.tailAt_left_frame c j).convoy])

theorem advanceTail_moving_frame (j : Nat) (st : (s.convoy c).state ≠ .arriving) :
    KeepsAllBut s (s.advanceTail c j) [.interlock, .tracker] := by
  by_cases h : s.TailMoves c j
  · rw [advanceTail_moving s c h st]
    exact s.tailAt_left_frame c j
  · rw [advanceTail_stays s c h]
    exact .refl s _

theorem roads_tailLeft (j : Nat) : (s.tailLeft c j).sil.roads = s.sil.roads := by
  unfold tailLeft
  cases s.routeAt c j with
  | none => rfl
  | some x =>
    dsimp only
    cases (s.sectionRec x).group with
    | none => exact s.roads_clearFor c _ x
    | some g =>
      dsimp only
      split
      · rfl
      · split
        · exact forEach_keeps (fun t => t.sil.roads) (fun t y => t.clearFor c _ y) (fun t y => t.roads_clearFor c _ y) _ _
        · rfl

theorem road_tailLeft (j : Nat) (d : Conv) : (s.tailLeft c j).road d = s.road d :=
  congrArg (fun l : Tab 12 Road => l.nth d) (s.roads_tailLeft c j)

theorem track_tailLeft (j : Nat) (d : Conv) : (s.tailLeft c j).track d = s.track d := (s.tailLeft_frame c j).track d

theorem road_advanceTail (j : Nat) (st : (s.convoy c).state ≠ .arriving) (d : Conv) :
    (s.advanceTail c j).road d = s.road d := by
  by_cases h : s.TailMoves c j
  · rw [advanceTail_moving s c h st, road_tailLeft]
    rfl
  · rw [advanceTail_stays s c h]

theorem track_tailAt (j : Nat) (d : Conv) : (s.tailAt c j).track d =
    if d = c then { s.track c with tail := j, records := (s.track c).records.filter fun q => q.j != j } else s.track d :=
  track_modTrack s c d _

/-- The tail and the records move, if anything. -/
theorem track_advanceTail (j : Nat) (st : (s.convoy c).state ≠ .arriving) : (s.advanceTail c j).track c =
    { s.track c with tail := ((s.advanceTail c j).track c).tail, records := ((s.advanceTail c j).track c).records } := by
  by_cases h : s.TailMoves c j
  · rw [advanceTail_moving s c h st, track_tailLeft, track_tailAt, if_pos rfl]
  · rw [advanceTail_stays s c h]

section
variable {s c} {t : State} (h : SameRoads s t)
include h

theorem modTrack_sameRoads (f : Track → Track) (hf : ∀ k, (f k).head = k.head) :
    SameRoads (s.modTrack c f) (t.modTrack c f) :=
  ⟨h.map, h.hls, h.convoy, fun d => by simp only [track_modTrack]; split <;> simp [hf, h.head], h.sec, h.grp, h.req, h.route⟩

theorem advanceTail_sameRoads (ht : t.track c = s.track c) (j : Nat) (st : (s.convoy c).state ≠ .arriving) :
    SameRoads (s.advanceTail c j) (t.advanceTail c j) := by
  have st' : (t.convoy c).state ≠ .arriving := by rwa [h.convoy]
  have moves : t.TailMoves c j ↔ s.TailMoves c j := by
    unfold TailMoves memberCount State.members
    rw [ht, h.convoy]
  by_cases m : s.TailMoves c j
  · rw [advanceTail_moving s c m st, advanceTail_moving t c (moves.mpr m) st']
    have tails : SameRoads (s.tailAt c j) (t.tailAt c j) := modTrack_sameRoads h _ fun _ => rfl
    exact tailLeft_sameRoads c tails _
  · rw [advanceTail_stays s c m, advanceTail_stays t c (mt moves.mp m)]
    exact h

end

/-! ### The head's advance (R102 steps 1 to 4) -/

/-- The head has advanced, with a record of count 1 at the boundary crossed. -/
def entered : State := s.modTrack c fun t =>
  { t with head := (s.track c).head + 1, records := t.records ++ [s.newRecord c ((s.track c).head + 1)], brakeSeen := false }

/-- The head has advanced, and with it the tail of a single truck. -/
def advanced : State :=
  let u := (s.entered c).memberBranch c 0 ((s.track c).head + 1)
  if u.memberCount c = 1 then u.advanceTail c ((s.track c).head + 1) else u

theorem leaderCrossing_eq (x : Sec) : s.leaderCrossing c x =
    ((((s.advanced c).headAdvanced c).recomputeTarget c).noBrakeStop c x).afterPassage c 0 ((s.track c).head + 1) := rfl

theorem track_entered : (s.entered c).track c =
    { s.track c with
      head := (s.track c).head + 1
      records := (s.track c).records ++ [s.newRecord c ((s.track c).head + 1)]
      brakeSeen := false } := by
  rw [entered, track_modTrack, if_pos rfl]

theorem cancelWatch_sameRoads : SameRoads s (s.cancelWatch c) :=
  ⟨rfl, rfl, fun _ => rfl, fun _ => rfl, fun _ => rfl, fun _ => rfl,
    fun d => by rw [cancelWatch, road_modRoad]; split <;> simp [*],
    fun d => by rw [cancelWatch, road_modRoad]; split <;> simp [*]⟩

section
variable {s c} (rolls : (s.convoy c).state = .rolling)
include rolls

theorem advanced_frame : KeepsAllBut s (s.advanced c) [.interlock, .tracker, .dispatcher] := by
  let u := (s.entered c).memberBranch c 0 ((s.track c).head + 1)
  have frame : KeepsAllBut s u [.tracker, .dispatcher] :=
    (s.modTrack_frame c _).mono.trans (memberBranch_frame _ c 0 _).mono
  have st : (u.convoy c).state ≠ .arriving := by rw [frame.convoy, rolls]; simp
  exact frame.mono.trans (.ite (u.advanceTail_moving_frame c _ st).mono (.refl u _))

theorem road_advanced (d : Conv) : (s.advanced c).road d = s.road d := by
  let u := (s.entered c).memberBranch c 0 ((s.track c).head + 1)
  have frame : KeepsAllBut s u [.tracker, .dispatcher] :=
    (s.modTrack_frame c _).mono.trans (memberBranch_frame _ c 0 _).mono
  have st : (u.convoy c).state ≠ .arriving := by rw [frame.convoy, rolls]; simp
  change (if u.memberCount c = 1 then u.advanceTail c _ else u).road d = _
  split
  · rw [road_advanceTail u c _ st, frame.road]
  · exact frame.road d

/-- The branch bit of the leader is the only difference from the state that the request for road is said to be made in. -/
theorem advanced_sameRoads : SameRoads
    (if s.memberCount c = 1 then (s.entered c).advanceTail c ((s.track c).head + 1) else s.entered c) (s.advanced c) := by
  let u := (s.entered c).memberBranch c 0 ((s.track c).head + 1)
  have frame : KeepsAllBut (s.entered c) u [.dispatcher] := memberBranch_frame _ c 0 _
  have count : u.memberCount c = s.memberCount c := by
    rw [memberCount, frame.members]
    rfl
  change SameRoads _ (if u.memberCount c = 1 then u.advanceTail c _ else u)
  rw [count]
  split
  · exact advanceTail_sameRoads frame.sameRoads (frame.track c) _ (by
      rw [show ((s.entered c).convoy c) = s.convoy c from rfl, rolls]
      simp)
  · exact frame.sameRoads

/-- Head and brake-seen after the advance; tail and records only by a single truck's tail. -/
theorem track_advanced : ((s.advanced c).track c).head = (s.track c).head + 1
    ∧ ((s.advanced c).track c).brakeSeen = false ∧ ((s.advanced c).track c).units = (s.track c).units
    ∧ (s.memberCount c ≠ 1 → (s.advanced c).track c = (s.entered c).track c)
    ∧ (s.memberCount c = 1 → (s.track c).tail = (s.track c).head → (∀ r ∈ (s.track c).records, r.j ≤ (s.track c).head) →
      ((s.advanced c).track c).tail = (s.track c).head + 1 ∧ ((s.advanced c).track c).records = (s.track c).records) := by
  let j := (s.track c).head + 1
  let u := (s.entered c).memberBranch c 0 j
  have frame : KeepsAllBut (s.entered c) u [.dispatcher] := memberBranch_frame _ c 0 _
  have track : u.track c = _ := (frame.track c).trans (s.track_entered c)
  have members : u.members c = s.members c := frame.members c
  have count : u.memberCount c = s.memberCount c := congrArg List.length members
  have st : (u.convoy c).state ≠ .arriving := by
    rw [frame.convoy, show ((s.entered c).convoy c) = s.convoy c from rfl, rolls]
    simp
  change ((if u.memberCount c = 1 then u.advanceTail c j else u).track c).head = _
    ∧ ((if u.memberCount c = 1 then u.advanceTail c j else u).track c).brakeSeen = _
    ∧ ((if u.memberCount c = 1 then u.advanceTail c j else u).track c).units = _
    ∧ (s.memberCount c ≠ 1 → (if u.memberCount c = 1 then u.advanceTail c j else u).track c = _)
    ∧ (s.memberCount c = 1 → _ → _ → ((if u.memberCount c = 1 then u.advanceTail c j else u).track c).tail = _
      ∧ ((if u.memberCount c = 1 then u.advanceTail c j else u).track c).records = _)
  rw [count]
  by_cases single : s.memberCount c = 1
  · rw [if_pos single]
    have moved := u.track_advanceTail c j st
    refine ⟨by rw [moved, track], by rw [moved, track], by rw [moved, track], fun k => absurd single k, fun _ atHead old => ?_⟩
    have none (r : Crossing) (hr : r ∈ (s.track c).records) : r.j ≠ j := by
      have := old r hr
      omega
    have moves : u.TailMoves c j := by
      refine ⟨s.newRecord c j, ?_, ?_, ?_⟩
      · rw [track, Track.record?, List.find?_append, List.find?_eq_none.mpr fun r hr => by simpa using none r hr]
        simp [newRecord, j]
      · rw [count, single]
        rfl
      · rw [track, atHead]
    rw [advanceTail_moving u c moves st, track_tailLeft, track_tailAt, if_pos rfl, track]
    refine ⟨rfl, ?_⟩
    have kept : (s.track c).records.filter (fun q => q.j != j) = (s.track c).records :=
      List.filter_eq_self.mpr fun r hr => by simpa using none r hr
    simp [newRecord, kept, j]
  · rw [if_neg single]
    exact ⟨by rw [track], by rw [track], by rw [track], fun _ => frame.track c, fun k => absurd k single⟩

end

/-- The watch on the entered fork ends, and the watch is evaluated (R102 step 4). -/
def watched : State :=
  (if (s.road c).watch.index? = some (s.track c).head then s.cancelWatch c else s).evalWatch c

theorem headAdvanced_eq : s.headAdvanced c = (s.watched c).request c := rfl

theorem watched_frame : KeepsAllBut s (s.watched c) [.interlock, .dispatcher] :=
  (KeepsAllBut.ite (s.cancelWatch_frame c).mono (.refl s _)).trans (evalWatch_frame _ c)

theorem watched_sameRoads : SameRoads s (s.watched c) := by
  unfold watched
  split
  · exact (s.cancelWatch_sameRoads c).trans (evalWatch_sameRoads _ c)
  · exact s.evalWatch_sameRoads c

theorem headAdvanced_requested : Requested s (s.headAdvanced c) c :=
  (s.watched_sameRoads c).requested ((s.watched c).requested_request c)

theorem headAdvanced_road : ((s.headAdvanced c).road c).route = (s.road c).route :=
  ((request_scanned (s.watched c) c).route c).trans ((s.watched_sameRoads c).route c)

theorem headAdvanced_trucks : (s.headAdvanced c).cvt.trucks = s.cvt.trucks :=
  (request_scanned (s.watched c) c).trucks.trans (congrArg ConvoyTable.trucks (s.watched_frame c).cvt)

theorem headAdvanced_moving (h : (s.convoy c).state ≠ .waiting) :
    (s.headAdvanced c).convoy c = s.convoy c ∧ (s.headAdvanced c).track c = s.track c := by
  have frame := s.watched_frame c
  have scanned := request_scanned (s.watched c) c
  have moving : ((s.watched c).convoy c).state ≠ .waiting := by rwa [frame.convoy]
  exact ⟨(scanned.convoy_moving moving).trans (frame.convoy c), (scanned.units c moving).trans (frame.track c)⟩

/-! ### The end of a leader crossing (R102 steps 5 to 7) -/

/-- The leader of `c` stands. -/
def leaderHalted : State :=
  match s.leader? c with
  | some a => s.hardStop a
  | none => s

theorem leaderHalted_frame : KeepsAllBut s (s.leaderHalted c) [.governor, .dispatcher] := by
  unfold leaderHalted
  split
  · exact s.hardStop_frame _
  · exact .refl s _

theorem leaderHalted_speed {a : Addr} (h : s.leader? c = some a) : (s.leaderHalted c).speed a = ⟨0, 0⟩ := by
  unfold leaderHalted
  rw [h]
  exact (s.hardStop_spec a).1.1

theorem enterWaiting_eq : s.enterWaiting c =
    ((((s.setState c .waiting).leaderHalted c).standDown c).raiseWaiting c (.ownerOf c)) := rfl

theorem raiseWaiting_frame (who : Audience) : KeepsAllBut s (s.raiseWaiting c who) [] := s.raise_frame _ who

theorem enterWaiting_frame' : KeepsAllBut s (s.enterWaiting c) [.convoyTable, .tracker, .governor, .dispatcher] :=
  (s.setState_frame c .waiting).mono.trans ((leaderHalted_frame _ c).mono.trans
    ((standDown_frame _ c).mono.trans (raise_frame _ _ _).mono))

theorem enterWaiting_cvt : (s.enterWaiting c).cvt = (s.setState c .waiting).cvt :=
  (raise_frame _ _ _).cvt.trans ((standDown_frame _ c).cvt.trans (leaderHalted_frame _ c).cvt)

theorem enterWaiting_convoy : (s.enterWaiting c).convoy c = { s.convoy c with state := .waiting } := by
  rw [convoy, enterWaiting_cvt, ← convoy, setState, convoy_modConvoy, if_pos rfl]

theorem enterWaiting_track : (s.enterWaiting c).track c =
    { s.track c with units := ((s.enterWaiting c).track c).units } := by
  have steps := standDown_stepped ((s.setState c .waiting).leaderHalted c) c
  have before : ((s.setState c .waiting).leaderHalted c).track c = s.track c := (leaderHalted_frame _ c).track c
  rw [enterWaiting_eq, (raiseWaiting_frame _ c _).track, steps.same.track, before]

theorem enterWaiting_leader (hc : (truckAddrs (s.members c)).Nodup) {a : Addr} (h : s.leader? c = some a) :
    (s.enterWaiting c).speed a = ⟨0, 0⟩ := by
  let u := s.setState c .waiting
  have members : u.members c = s.members c := by simp [u, State.members, setState]
  have first : u.leader? c = some a := by rw [leader?, members, ← leader?, h]
  have frame := u.leaderHalted_frame c
  have steps := standDown_stepped (u.leaderHalted c) c
  have kept := steps.leader (a := a) (by rwa [frame.members, members]) (by rwa [leader?, frame.members])
  rw [enterWaiting_eq, (raiseWaiting_frame _ c _).speed]
  exact kept.trans (u.leaderHalted_speed c first)

/-- A convoy stands for want of road: no brake detector, and no effective next section (R102 step 6). -/
def standsStill (x : Sec) : Prop := (s.sectionRec x).brake = none ∧ s.nextEffective c = false

theorem noBrakeStop_stands {x : Sec} (st : (s.convoy c).state = .rolling) (h : s.standsStill c x) :
    s.noBrakeStop c x = s.enterWaiting c := if_pos ⟨st, by simp [hasBrake, h.1], h.2⟩

theorem noBrakeStop_goes {x : Sec} (h : ¬ s.standsStill c x) : s.noBrakeStop c x = s :=
  if_neg fun k => h ⟨by simpa [hasBrake] using k.2.1, k.2.2⟩

theorem noBrakeStop_frame (x : Sec) : KeepsAllBut s (s.noBrakeStop c x) [.convoyTable, .tracker, .governor, .dispatcher] :=
  .ite (s.enterWaiting_frame' c) (.refl s _)

theorem noBrakeStop_trucks (x : Sec) : (s.noBrakeStop c x).cvt.trucks = s.cvt.trucks := by
  unfold noBrakeStop
  split
  · rw [enterWaiting_cvt]
    rfl
  · rfl

/-- The end of a leader crossing of a ROLLING convoy: its target, and WAITING where it stands for want of road. -/
structure Concluded (s t : State) (x : Sec) : Prop where
  sil : t.sil = s.sil
  map : t.map = s.map
  track : t.track c = { s.track c with units := (t.track c).units }
  convoy : t.convoy c =
    { s.convoy c with state := if (s.sectionRec x).brake = none ∧ t.nextEffective c = false then .waiting else .rolling }
  stands : ∀ a, s.leader? c = some a → (t.convoy c).state = .waiting → t.speed a = ⟨0, 0⟩
  goes : ∀ a, s.leader? c = some a → (t.convoy c).state = .rolling → (t.speed a).set = t.leaderTarget c .rolling
  trucks : t.cvt.trucks = s.cvt.trucks

theorem concluded (x : Sec) (k j : Nat) (st : (s.convoy c).state = .rolling) (hc : (truckAddrs (s.members c)).Nodup) :
    Concluded c s (((s.recomputeTarget c).noBrakeStop c x).afterPassage c k j) x := by
  have fa : KeepsAllBut s (s.recomputeTarget c) [.governor, .dispatcher] := s.recomputeTarget_frame c
  have formed : s.formed c = true := by rw [formed_iff, st]; simp
  have targeted := s.recomputeTarget_formed formed
  generalize s.recomputeTarget c = a at fa targeted ⊢
  have fb := a.noBrakeStop_frame c x
  have held := a.noBrakeStop_stands (c := c) (x := x)
  have went := a.noBrakeStop_goes (c := c) (x := x)
  have table := a.noBrakeStop_trucks c x
  generalize a.noBrakeStop c x = b at fb held went table ⊢
  have steps := b.afterPassage_stepped c k j
  have ft := b.afterPassage_frame c k j
  generalize b.afterPassage c k j = t at steps ft ⊢
  have rolls : (a.convoy c).state = .rolling := by rw [fa.convoy, st]
  have trackB : b.track c = { a.track c with units := (b.track c).units } := by
    by_cases stand : a.standsStill c x
    · rw [held rolls stand]
      exact a.enterWaiting_track c
    · rw [went stand]
  have track : t.track c = { s.track c with units := (t.track c).units } := by
    rw [steps.same.track, trackB, fa.track]
  have effective : t.nextEffective c = a.nextEffective c :=
    nextEffective_congr (ft.map.trans fb.map) ((ft.road c).trans (fb.road c)) (by rw [track, fa.track])
      fun y => (ft.holds c y).trans (fb.holds c y)
  have record : a.sectionRec x = s.sectionRec x := congrArg (fun m : LayoutMap => m.sections.nth x) fa.map
  have iff : a.standsStill c x ↔ (s.sectionRec x).brake = none ∧ t.nextEffective c = false := by
    rw [standsStill, record, effective]
  have tc : t.convoy c = b.convoy c := steps.same.convoy
  have convoy : t.convoy c = { s.convoy c with
      state := if (s.sectionRec x).brake = none ∧ t.nextEffective c = false then .waiting else .rolling } := by
    rw [tc]
    by_cases stand : a.standsStill c x
    · rw [if_pos (iff.mp stand), held rolls stand, enterWaiting_convoy, fa.convoy]
    · rw [if_neg (mt iff.mpr stand), went stand, fa.convoy, ← st]
  have members : b.members c = s.members c := by rw [State.members, ← tc, convoy]; rfl
  have kept (d : Addr) (hd : s.leader? c = some d) : t.speed d = b.speed d :=
    steps.leader (by rwa [members]) (by rwa [leader?, members])
  refine ⟨(ft.sil.trans fb.sil).trans fa.sil, (ft.map.trans fb.map).trans fa.map, track, convoy, fun d hd waits => ?_,
    fun d hd goes => ?_, ?_⟩
  · have stand : a.standsStill c x := by
      rw [iff]
      by_contra no
      rw [convoy, if_neg no] at waits
      cases waits
    rw [kept d hd, held rolls stand]
    exact a.enterWaiting_leader c (by rwa [fa.members]) (by rwa [leader?, fa.members])
  · have still : ¬ a.standsStill c x := fun stand => by
      rw [convoy, if_pos (iff.mp stand)] at goes
      cases goes
    have target : t.leaderTarget c .rolling = s.leaderTarget c .rolling :=
      leaderTarget_congr (ft.map.trans (fb.map.trans fa.map)) ((ft.road c).trans ((fb.road c).trans (fa.road c)))
        (by rw [track]) (fun y => (ft.holds c y).trans ((fb.holds c y).trans (fa.holds c y)))
        (ft.hls.trans (fb.hls.trans fa.hls)) (by rw [convoy]) (by rw [track]) .rolling
    rw [kept d hd, target, went still, targeted, st, s.retarget_set hd]
  · rw [ft.cvt, table, fa.cvt]

end State

/-- Settles O42: the head's advance up to the request (`advanced_sameRoads`), then target and WAITING (`concluded`). -/
theorem leaderCrossingsAdvanceTheHead : Obligations.LeaderCrossingsAdvanceTheHead := by
  intro s c x rolls nodup next old
  have frame := s.leaderCrossing_frame c x
  have crossing := s.leaderCrossing_eq c x
  generalize s.leaderCrossing c x = t at frame crossing ⊢
  have fa := State.advanced_frame rolls
  have same := State.advanced_sameRoads rolls
  have roads := State.road_advanced rolls c
  obtain ⟨head, brake, -, many, single⟩ := State.track_advanced rolls
  generalize s.advanced c = a at crossing fa same roads head brake many single
  have moving : (a.convoy c).state ≠ .waiting := by rw [fa.convoy, rolls]; simp
  obtain ⟨convoy, track⟩ := a.headAdvanced_moving c moving
  have map := (a.headAdvanced_frame c).map
  have req := same.requested (a.headAdvanced_requested c)
  have route := a.headAdvanced_road c
  have trucks := a.headAdvanced_trucks c
  generalize a.headAdvanced c = b at crossing convoy track map req route trucks
  have bc : b.convoy c = s.convoy c := convoy.trans (fa.convoy c)
  have members : b.members c = s.members c := congrArg Convoy.members bc
  have record : b.sectionRec x = s.sectionRec x := congrArg (fun m : LayoutMap => m.sections.nth x) (map.trans fa.map)
  have first (d : Addr) (hd : s.leader? c = some d) : b.leader? c = some d := by rwa [State.leader?, members]
  have concluded := b.concluded c x 0 ((s.track c).head + 1) (by rw [bc, rolls]) (by rwa [members])
  rw [← crossing] at concluded
  have placed := concluded.track
  rw [track] at placed
  have state := concluded.convoy
  rw [bc, record] at state
  refine ⟨?_, ?_, fun more => ?_, fun one atHead => ?_, state, fun d hd => concluded.stands d (first d hd),
    fun d hd => concluded.goes d (first d hd), req.of_sil concluded.sil concluded.map, ?_, ?_, frame⟩
  · rw [placed, head]
  · rw [placed, brake]
  · rw [placed, many (by omega), State.track_entered]
    refine ⟨rfl, ?_⟩
    rw [State.newRecord, decide_eq_true more]
  · rw [placed]
    exact single one atHead old
  · rw [State.road, concluded.sil, ← State.road, route, roads]
  · rw [concluded.trucks, trucks, fa.cvt]

end Sys2Proof.Machine
end

section
/-!
SUPPORT. Steps over the follower units one by one (R107, R108), and the records of crossings (R98, R101).
-/

namespace Sys2Proof.Machine

open Sys2Proof

set_option Elab.async false

namespace State

variable (s : State)

/-! ### One step per unit -/

/-- A step at unit `u` of convoy `c` changes the run state of that unit and the speed of its truck, and no other unit's. -/
structure UnitStep (c : Conv) (f : State → Nat → State) : Prop where
  members : ∀ t u, (f t u).members c = t.members c
  stepped : ∀ t u, 1 ≤ u → Stepped t (f t u) c
  states : ∀ t u w, w ≠ u → (f t u).unitState? c w = t.unitState? c w
  exist : ∀ t u w, ((f t u).unitState? c w).isSome = (t.unitState? c w).isSome
  speeds : ∀ t u a, t.unitTruck? c u ≠ some a → (f t u).speed a = t.speed a

section
variable {s} {c : Conv} {f : State → Nat → State} (hf : UnitStep c f) (hc : (truckAddrs (s.members c)).Nodup)
include hf

theorem UnitStep.exists_all (l : List Nat) (w : Nat) :
    ((s.forEach l f).unitState? c w).isSome = (s.unitState? c w).isSome :=
  forEach_keeps (fun t => (t.unitState? c w).isSome) f (fun t u => hf.exist t u w) s l

include hc

/-- Steps at other units leave unit `w`. -/
theorem UnitStep.away {l : List Nat} (hl : ∀ u ∈ l, 1 ≤ u) {w : Nat} (hw : w ∉ l) :
    (s.forEach l f).unitState? c w = s.unitState? c w
      ∧ ∀ a, s.unitTruck? c w = some a → (s.forEach l f).speed a = s.speed a := by
  induction l generalizing s with
  | nil => exact ⟨rfl, fun _ _ => rfl⟩
  | cons u l ih =>
    obtain ⟨other, rest⟩ := not_or.mp (mt List.mem_cons.mpr hw)
    have same := (hf.stepped s u (hl u List.mem_cons_self)).same
    obtain ⟨state, speed⟩ := ih (s := f s u) (by rwa [same.members]) (fun i hi => hl i (List.mem_cons_of_mem u hi)) rest
    refine ⟨state.trans (hf.states s u w other), fun a ha => ?_⟩
    refine (speed a (by rwa [same.unitTruck])).trans (hf.speeds s u a fun k => other ?_)
    exact s.unitTruck_inj hc ha k

/-- What the steps make of unit `w` is what its own step makes of it. -/
theorem UnitStep.at_unit {l : List Nat} (hl : ∀ u ∈ l, 1 ≤ u) (nodup : l.Nodup) {w : Nat} (hw : w ∈ l) : ∃ t : State,
    Stepped s t c ∧ t.unitState? c w = s.unitState? c w ∧ (∀ a, s.unitTruck? c w = some a → t.speed a = s.speed a)
      ∧ (s.forEach l f).unitState? c w = (f t w).unitState? c w
      ∧ ∀ a, s.unitTruck? c w = some a → (s.forEach l f).speed a = (f t w).speed a := by
  induction l generalizing s with
  | nil => exact absurd hw List.not_mem_nil
  | cons u l ih =>
    obtain ⟨fresh, nodup⟩ := List.nodup_cons.mp nodup
    have later (i : Nat) (hi : i ∈ l) : 1 ≤ i := hl i (List.mem_cons_of_mem u hi)
    have step := hf.stepped s u (hl u List.mem_cons_self)
    have trucks : (truckAddrs ((f s u).members c)).Nodup := by rwa [step.same.members]
    rw [forEach_cons]
    by_cases here : w = u
    · subst here
      obtain ⟨state, speed⟩ := hf.away (s := f s w) trucks later fresh
      exact ⟨s, .refl s c, rfl, fun _ _ => rfl, state, fun a ha => speed a (by rwa [step.same.unitTruck])⟩
    · obtain ⟨t, steps, state, speed, states, speeds⟩ := ih (s := f s u) trucks later nodup
        ((List.mem_cons.mp hw).resolve_left here)
      refine ⟨t, step.trans steps, state.trans (hf.states s u w here), fun a ha => ?_, states, fun a ha => ?_⟩
      · refine (speed a (by rwa [step.same.unitTruck])).trans (hf.speeds s u a fun k => here ?_)
        exact s.unitTruck_inj hc ha k
      · exact speeds a (by rwa [step.same.unitTruck])

end

/-! ### Stand-down, restart and stop of one unit (R107, R108) -/

section
variable (c : Conv)

theorem unitState_standUnit (u w : Nat) : (s.standUnit c u).unitState? c w =
    if w = u then (s.unitState? c u).map fun _ => .down else s.unitState? c w := by
  rw [← unitState_setUnit]
  unfold standUnit
  dsimp only
  split
  · rw [unitState?, unitState?, (hardStop_frame _ _).track]
  · rfl

theorem speed_standUnit (u : Nat) (a : Addr) :
    (s.standUnit c u).speed a = if s.unitTruck? c u = some a then ⟨0, 0⟩ else s.speed a := by
  have truck : (s.setUnit c u .down).unitTruck? c u = s.unitTruck? c u := (s.setUnit_same c u .down).unitTruck u
  have kept : (s.setUnit c u .down).speed a = s.speed a := (s.setUnit_frame c u .down).speed a
  unfold standUnit
  dsimp only
  rw [truck]
  cases s.unitTruck? c u with
  | none => rw [if_neg (by simp), kept]
  | some b =>
    by_cases hb : a = b
    · subst hb
      rw [if_pos rfl]
      exact (hardStop_spec _ a).1.1
    · rw [if_neg fun k => hb (Option.some.inj k).symm]
      exact ((hardStop_spec _ b).2 a hb).1.trans kept

theorem unitState_restartUnit (u w : Nat) : (s.restartUnit c u).unitState? c w = s.unitState? c w ∨
    (s.restartUnit c u).unitState? c w =
      if w = u then (s.unitState? c u).map fun _ => (s.convoy c).state.restarted else s.unitState? c w := by
  have sped (v w : Nat) : (s.spedUnit c u v).unitState? c w = s.unitState? c w := by
    rw [unitState?, unitState?, spedUnit_track]
  rw [restartUnit_eq]
  dsimp only
  split
  · exact .inr (by rw [unitState_setUnit, sped, sped, spedUnit_convoy])
  · exact .inl (sped _ w)

theorem speed_restartUnit {u : Nat} {a : Addr} (h : s.unitTruck? c u ≠ some a) : (s.restartUnit c u).speed a = s.speed a := by
  rw [restartUnit_eq]
  dsimp only
  split
  · rw [(setUnit_frame _ c u _).speed, spedUnit_speed, if_neg h]
  · rw [spedUnit_speed, if_neg h]

theorem setUnit_unitStep (r : RunState) : UnitStep c fun t u => t.setUnit c u r where
  members t u := (t.setUnit_same c u r).members
  stepped t u _ := t.setUnit_stepped c u r
  states t u w hw := by rw [unitState_setUnit, if_neg hw]
  exist t u w := by
    rw [unitState_setUnit]
    split
    · rename_i hw
      rw [hw, Option.isSome_map]
    · rfl
  speeds t u a _ := (t.setUnit_frame c u r).speed a

theorem standUnit_unitStep : UnitStep c fun t u => t.standUnit c u where
  members t u := (t.standUnit_frame c u).members c
  stepped t _ hu := t.standUnit_stepped c hu
  states t u w hw := by rw [unitState_standUnit, if_neg hw]
  exist t u w := by
    rw [unitState_standUnit]
    split
    · rename_i hw
      rw [hw, Option.isSome_map]
    · rfl
  speeds t u a ha := by rw [speed_standUnit, if_neg ha]

theorem restartUnit_unitStep : UnitStep c fun t u => t.restartUnit c u where
  members t u := (t.restartUnit_same c u).members
  stepped t _ hu := t.restartUnit_stepped c hu
  states t u w hw := by
    rcases t.unitState_restartUnit c u w with k | k
    · exact k
    · rw [k, if_neg hw]
  exist t u w := by
    rcases t.unitState_restartUnit c u w with k | k
    · rw [k]
    · rw [k]
      split
      · rename_i hw
        rw [hw, Option.isSome_map]
      · rfl
  speeds t u a ha := t.speed_restartUnit c ha

variable {c}

theorem UnitStep.when {f : State → Nat → State} (hf : UnitStep c f) (p : State → Nat → Bool) :
    UnitStep c fun t u => if p t u then f t u else t where
  members t u := by
    split
    · exact hf.members t u
    · rfl
  stepped t u hu := .ite (hf.stepped t u hu) (.refl t c)
  states t u w hw := by
    split
    · exact hf.states t u w hw
    · rfl
  exist t u w := by
    split
    · exact hf.exist t u w
    · rfl
  speeds t u a ha := by
    split
    · exact hf.speeds t u a ha
    · rfl

theorem UnitStep.after {f g : State → Nat → State} (hf : UnitStep c f) (hg : UnitStep c g) :
    UnitStep c fun t u => g (f t u) u where
  members t u := (hg.members _ u).trans (hf.members t u)
  stepped t u hu := (hf.stepped t u hu).trans (hg.stepped _ u hu)
  states t u w hw := (hg.states _ u w hw).trans (hf.states t u w hw)
  exist t u w := (hg.exist _ u w).trans (hf.exist t u w)
  speeds t u a ha := (hg.speeds _ u a (by rwa [unitTruck?, hf.members])).trans (hf.speeds t u a ha)

variable (c) (k j : Nat)

theorem standDownStep_unitStep : UnitStep c fun t u => t.standDownStep c k j u := (standUnit_unitStep c).when _

theorem restartStep_unitStep : UnitStep c fun t u => t.restartStep c k u := (restartUnit_unitStep c).when _

theorem stoppedAheadStep_unitStep : UnitStep c fun t u => t.stoppedAheadStep c k u :=
  (setUnit_unitStep c .startPending).when _

theorem unitSteps_unitStep : UnitStep c fun t u => t.unitSteps c k j u :=
  ((standDownStep_unitStep c k j).after (restartStep_unitStep c k)).after (stoppedAheadStep_unitStep c k)

/-! ### What the steps after a passage make of a unit in RUN, and how a unit becomes DOWN (R108) -/

theorem standDownStep_cases (u : Nat) : s.standDownStep c k j u = s.standUnit c u ∨ s.standDownStep c k j u = s :=
  ite_eq_or_eq _ _ _

theorem restartStep_cases (u : Nat) : s.restartStep c k u = s.restartUnit c u ∨ s.restartStep c k u = s :=
  ite_eq_or_eq _ _ _

theorem stoppedAheadStep_cases (u : Nat) :
    s.stoppedAheadStep c k u = s.setUnit c u .startPending ∨ s.stoppedAheadStep c k u = s := ite_eq_or_eq _ _ _

theorem standDownStep_other {u : Nat} (h : s.unitState? c u ≠ some .downPending) : s.standDownStep c k j u = s := by
  unfold standDownStep
  exact if_neg (by simp [h])

theorem restartStep_other {u : Nat} (h : s.unitState? c u ≠ some .startPending) : s.restartStep c k u = s := by
  unfold restartStep
  exact if_neg (by simp [h])

theorem speed_stoppedAheadStep (u : Nat) (a : Addr) : (s.stoppedAheadStep c k u).speed a = s.speed a := by
  rcases s.stoppedAheadStep_cases c k u with h | h
  · rw [h, (s.setUnit_frame c u _).speed]
  · rw [h]

/-- The steps after a passage leave the speed of a truck whose unit is in RUN. -/
theorem speed_unitSteps_run {u : Nat} (h : s.unitState? c u = some .run) (a : Addr) :
    (s.unitSteps c k j u).speed a = s.speed a := by
  rw [unitSteps, speed_stoppedAheadStep, standDownStep_other s c k j (by simp [h]), restartStep_other s c k (by simp [h])]

theorem restartStep_down {u : Nat} (h : (s.restartStep c k u).unitState? c u = some .down) : s.restartStep c k u = s := by
  by_cases pending : s.unitState? c u = some .startPending
  · rcases s.restartStep_cases c k u with restarts | stays
    · exfalso
      rw [restarts] at h
      rcases s.unitState_restartUnit c u u with e | e
      · rw [e, pending] at h
        cases h
      · rw [e, if_pos rfl, pending] at h
        cases state : (s.convoy c).state <;> simp [state, ConvoyState.restarted, ConvoyState.runsIn] at h
    · exact stays
  · exact s.restartStep_other c k pending

theorem stoppedAheadStep_down {u : Nat} (h : (s.stoppedAheadStep c k u).unitState? c u = some .down) :
    s.stoppedAheadStep c k u = s := by
  rcases s.stoppedAheadStep_cases c k u with stops | stays
  · rw [stops, unitState_setUnit, if_pos rfl] at h
    simp at h
  · exact stays

/-- A unit that the steps leave DOWN was DOWN, or its truck has been hard-stopped. -/
theorem unitSteps_down {u : Nat} (h : (s.unitSteps c k j u).unitState? c u = some .down) : s.unitState? c u = some .down
    ∨ ∀ a, s.unitTruck? c u = some a → (s.unitSteps c k j u).speed a = ⟨0, 0⟩ := by
  unfold unitSteps at h ⊢
  have third := stoppedAheadStep_down _ c k h
  rw [third] at h ⊢
  have second := restartStep_down _ c k h
  rw [second] at h ⊢
  rcases s.standDownStep_cases c k j u with stands | stays
  · refine .inr fun a ha => ?_
    rw [stands, speed_standUnit, if_pos ha]
  · exact .inl (stays ▸ h)

variable {s c k j} (hc : (truckAddrs (s.members c)).Nodup) {u : Nat} (one : 1 ≤ u) (count : u < unitCount (s.members c))
include hc one count

/-- After a passage a unit that is DOWN was DOWN, or its truck stands. -/
theorem afterPassage_down (h : (s.afterPassage c k j).unitState? c u = some .down) : s.unitState? c u = some .down
    ∨ ∀ a, s.unitTruck? c u = some a → (s.afterPassage c k j).speed a = ⟨0, 0⟩ := by
  obtain ⟨t, steps, state, -, states, speeds⟩ := (unitSteps_unitStep c k j).at_unit hc
    (fun i hi => ((s.mem_followers c i).mp hi).1) (s.followers_nodup c) ((s.mem_followers c u).mpr ⟨one, count⟩)
  rw [afterPassage, states] at h
  rcases t.unitSteps_down c k j h with down | stands
  · exact .inl (state ▸ down)
  · refine .inr fun a ha => ?_
    rw [afterPassage, speeds a ha]
    exact stands a (by rwa [steps.same.unitTruck])

theorem speed_afterPassage_run (h : s.unitState? c u = some .run) {a : Addr} (ha : s.unitTruck? c u = some a) :
    (s.afterPassage c k j).speed a = s.speed a := by
  obtain ⟨t, -, state, speed, -, speeds⟩ := (unitSteps_unitStep c k j).at_unit hc
    (fun i hi => ((s.mem_followers c i).mp hi).1) (s.followers_nodup c) ((s.mem_followers c u).mpr ⟨one, count⟩)
  rw [afterPassage, speeds a ha, t.speed_unitSteps_run c k j (state.trans h), speed a ha]

/-- At the end of a convoy's run every follower unit is DOWN, and the trucks of those that were not stand (R107). -/
theorem standRest_unit : (s.standRest c).unitState? c u = (s.unitState? c u).map (fun _ => .down)
    ∧ ∀ a, s.unitTruck? c u = some a →
      (s.standRest c).speed a = if s.unitState? c u = some .down then s.speed a else ⟨0, 0⟩ := by
  have step : UnitStep c fun t u => if t.unitState? c u = some .down then t else t.standUnit c u := by
    have stands := (standUnit_unitStep c).when fun t u => !decide (t.unitState? c u = some .down)
    refine cast (congrArg (UnitStep c) (funext fun t => funext fun u => ?_)) stands
    by_cases down : t.unitState? c u = some .down
    · simp [down]
    · simp [down]
  obtain ⟨t, steps, state, speed, states, speeds⟩ := step.at_unit hc
    (fun i hi => ((s.mem_followers c i).mp hi).1) (s.followers_nodup c) ((s.mem_followers c u).mpr ⟨one, count⟩)
  refine ⟨?_, fun a ha => ?_⟩
  · rw [standRest, states]
    split
    · rename_i down
      rw [state] at down
      rw [state, down]
      rfl
    · rw [unitState_standUnit, if_pos rfl, state]
  · rw [standRest, speeds a ha]
    split
    · rename_i down
      rw [state] at down
      rw [if_pos down, speed a ha]
    · rename_i no
      rw [state] at no
      rw [if_neg no, speed_standUnit, if_pos (by rwa [steps.same.unitTruck])]

end

end State

end Sys2Proof.Machine
end

section
/-!
A member crossing: O43. The count and the gap (`tallied`), the steps of the units, then the tail.
-/

namespace Sys2Proof.Machine

open Sys2Proof

set_option Elab.async false

/-! ### Records of crossings (R98) -/

theorem Track.record?_modRecord (t : Track) (j i : Nat) (f : Crossing → Crossing) (hf : ∀ q, (f q).j = q.j) :
    (t.modRecord j f).record? i = if i = j then (t.record? i).map f else t.record? i := by
  have place (q : Crossing) : (if q.j = j then f q else q).j = q.j := by
    split
    · exact hf q
    · rfl
  have found : (t.modRecord j f).record? i = (t.record? i).map fun q => if q.j = j then f q else q := by
    simp only [Track.record?, Track.modRecord, List.find?_map, Function.comp_def, place]
  rw [found]
  cases record : t.record? i with
  | none => simp
  | some q =>
    have at_i : q.j = i := by simpa using List.find?_some record
    simp only [Option.map_some, at_i]
    split <;> rfl

theorem record?_filter (l : List Crossing) (j i : Nat) : (l.filter fun q => q.j != j).find? (fun q => q.j == i) =
    if i = j then none else l.find? fun q => q.j == i := by
  rw [List.find?_filter]
  split
  · rename_i h
    subst h
    exact List.find?_eq_none.mpr fun q _ => by simp
  · rename_i h
    congr 1
    funext q
    by_cases hq : q.j = i
    · simp [hq, h]
    · simp [hq]

/-- The unit of a member that is a TRUCK is that truck's. -/
theorem truckAddrs_unitIndex {ms : List Member} {n : Nat} {a : Addr} {len : Nat} (h : ms[n]? = some (.truck a len)) :
    (truckAddrs ms)[unitIndex ms n]? = some a := by
  have upTo : truckAddrs (ms.take (n + 1)) = truckAddrs (ms.take n) ++ [a] := by
    rw [List.take_add_one, h, truckAddrs, List.filterMap_append]
    rfl
  have split : truckAddrs ms = truckAddrs (ms.take (n + 1)) ++ truckAddrs (ms.drop (n + 1)) := by
    rw [truckAddrs, truckAddrs, truckAddrs, ← List.filterMap_append, List.take_append_drop]
  have index : unitIndex ms n = (truckAddrs (ms.take n)).length := by
    rw [unitIndex, unitCount, upTo, List.length_append]
    rfl
  rw [index, split, upTo]
  simp

namespace State

variable (s : State) (c : Conv)

/-! ### Count, gap and timer (R101 steps 1 to 3) -/

/-- The count rises. -/
def countedUp (r : Crossing) : State := s.modRecord c r.j fun q => { q with n := r.n + 1, running := false }

/-- The count rises, and the gap is handed to the Governor. -/
def gapHanded (r : Crossing) : State :=
  if 1 ≤ r.n then (s.countedUp c r).handGap c r.n r.j r.timer r.thr.tg else s.countedUp c r

/-- The count rises, the gap is handed on, and the timer starts anew for the next member. -/
def tallied (r : Crossing) : State :=
  if r.n + 1 < (s.gapHanded c r).memberCount c
  then (s.gapHanded c r).modRecord c r.j ((s.gapHanded c r).startedTimer c) else s.gapHanded c r

/-- A member crossing up to the move of the tail. -/
def passed (r : Crossing) : State := ((s.tallied c r).memberBranch c r.n r.j).afterPassage c r.n r.j

theorem memberCrossing_eq (r : Crossing) : s.memberCrossing c r = (s.passed c r).advanceTail c r.j := rfl

section
variable (r : Crossing)

theorem track_countedUp (d : Conv) : (s.countedUp c r).track d =
    if d = c then (s.track c).modRecord r.j fun q => { q with n := r.n + 1, running := false } else s.track d :=
  track_modTrack s c d _

theorem gapHanded_frame : KeepsAllBut (s.countedUp c r) (s.gapHanded c r) [.governor] :=
  .ite (handGap_frame _ c _ _ _ _) (.refl _ _)

theorem gapHanded_members : (s.gapHanded c r).members c = s.members c := (s.gapHanded_frame c r).members c

theorem track_tallied (d : Conv) : (s.tallied c r).track d = if d = c then
      if r.n + 1 < s.memberCount c
      then ((s.track c).modRecord r.j fun q => { q with n := r.n + 1, running := false }).modRecord r.j
        ((s.gapHanded c r).startedTimer c)
      else (s.track c).modRecord r.j fun q => { q with n := r.n + 1, running := false }
    else s.track d := by
  have count : (s.gapHanded c r).memberCount c = s.memberCount c := congrArg List.length (s.gapHanded_members c r)
  have track (e : Conv) : (s.gapHanded c r).track e = (s.countedUp c r).track e := (s.gapHanded_frame c r).track e
  unfold tallied
  rw [count]
  by_cases hd : d = c
  · subst hd
    rw [if_pos rfl]
    split
    · rw [modRecord, track_modTrack, if_pos rfl, track, track_countedUp, if_pos rfl]
    · rw [track, track_countedUp, if_pos rfl]
  · rw [if_neg hd]
    split
    · rw [modRecord, track_modTrack, if_neg hd, track, track_countedUp, if_neg hd]
    · rw [track, track_countedUp, if_neg hd]

theorem tallied_frame : KeepsAllBut s (s.tallied c r) [.tracker, .governor] :=
  (s.modTrack_frame c _).mono.trans ((s.gapHanded_frame c r).mono.trans
    (.ite (modRecord_frame _ c r.j _).mono (.refl _ _)))

/-- The records after the count: that of the boundary crossed, and the others. -/
theorem record?_tallied (h : (s.track c).record? r.j = some r) :
    ((s.tallied c r).track c).record? r.j = (if r.n + 1 < s.memberCount c
        then some ⟨r.j, r.n + 1, 0, true, (s.convoy c).thr, false⟩ else some { r with n := r.n + 1, running := false })
      ∧ ∀ j, j ≠ r.j → ((s.tallied c r).track c).record? j = (s.track c).record? j := by
  have thr : ((s.gapHanded c r).convoy c).thr = (s.convoy c).thr :=
    congrArg Convoy.thr ((s.gapHanded_frame c r).convoy c)
  refine ⟨?_, fun j hj => ?_⟩
  · rw [track_tallied, if_pos rfl]
    split
    · rw [Track.record?_modRecord, if_pos rfl, Track.record?_modRecord, if_pos rfl, h]
      · simp [startedTimer, thr]
      · exact fun _ => rfl
      · exact fun _ => rfl
    · rw [Track.record?_modRecord, if_pos rfl, h]
      · rfl
      · exact fun _ => rfl
  · rw [track_tallied, if_pos rfl]
    split
    · rw [Track.record?_modRecord, if_neg hj, Track.record?_modRecord, if_neg hj]
      · exact fun _ => rfl
      · exact fun _ => rfl
    · rw [Track.record?_modRecord, if_neg hj]
      exact fun _ => rfl

/-- Head, tail and units after the count are as before. -/
theorem tallied_track : (s.tallied c r).track c = { s.track c with records := ((s.tallied c r).track c).records } := by
  rw [track_tallied, if_pos rfl]
  split <;> rfl

/-- The cap of the section at boundary `j` (R118). -/
def capAt (j : Nat) : Nat := match s.routeAt c j with | some x => s.vcap c x | none => 0

/-- A gap handed on sets the speed of its truck (R124 to R126). -/
theorem speed_handGap {k j g tg : Nat} {a : Addr} {len : Nat} (hk : (s.members c)[k]? = some (.truck a len))
    (run : s.unitState? c (unitIndex (s.members c) k) = some .run) : (s.handGap c k j g tg).speed a =
      ⟨if s.hls.halted then 0 else followerSpeed g tg (s.unitCmd c (unitIndex (s.members c) (k - 1)))
        (s.convoy c).params.kp (s.capAt c j), (s.speed a).cmd⟩ := by
  have truck : ((s.members c)[k]?).bind Member.addr? = some a := by rw [hk]; rfl
  unfold handGap
  rw [truck]
  dsimp only
  rw [if_pos run, followerComputation]
  simp only [speed_modSpeed_self]
  rfl

theorem speed_tallied {a : Addr} {len : Nat} (one : 1 ≤ r.n) (hk : (s.members c)[r.n]? = some (.truck a len))
    (run : s.unitState? c (unitIndex (s.members c) r.n) = some .run) : (s.tallied c r).speed a =
      ⟨if s.hls.halted then 0 else followerSpeed r.timer r.thr.tg (s.unitCmd c (unitIndex (s.members c) (r.n - 1)))
        (s.convoy c).params.kp (s.capAt c r.j), (s.speed a).cmd⟩ := by
  have started : (s.tallied c r).speed a = (s.gapHanded c r).speed a := by
    unfold tallied
    split
    · exact (modRecord_frame _ c r.j _).speed a
    · rfl
  have state : (s.countedUp c r).unitState? c (unitIndex (s.members c) r.n) = some .run := by
    rw [← run, unitState?, unitState?, track_countedUp, if_pos rfl]
    rfl
  rw [started, gapHanded, if_pos one]
  exact (s.countedUp c r).speed_handGap c hk state

end

end State

end Sys2Proof.Machine
end

section
/-!
A member crossing, continued: the units after it, the road that the tail leaves, and the end at the head (O43).
-/

namespace Sys2Proof.Machine

open Sys2Proof

set_option Elab.async false

theorem Track.record?_units (t : Track) (us : List RunState) (j : Nat) : { t with units := us }.record? j = t.record? j := rfl

theorem Track.record?_tailAt (t : Track) (j i : Nat) :
    { t with tail := j, records := t.records.filter fun q => q.j != j }.record? i = if i = j then none else t.record? i :=
  record?_filter t.records j i

namespace State

variable (s : State) (c : Conv)

/-! ### Up to the move of the tail (R101 steps 1 to 5) -/

section
variable (r : Crossing)

theorem tallied_branch_frame :
    KeepsAllBut s ((s.tallied c r).memberBranch c r.n r.j) [.tracker, .governor, .dispatcher] :=
  (s.tallied_frame c r).mono.trans (memberBranch_frame _ c r.n r.j).mono

theorem passed_frame : KeepsAllBut s (s.passed c r) [.tracker, .governor, .dispatcher] :=
  (s.tallied_branch_frame c r).trans (afterPassage_frame _ c r.n r.j).mono

theorem track_passed : (s.passed c r).track c =
    { (s.tallied c r).track c with units := ((s.passed c r).track c).units } := by
  have steps := ((s.tallied c r).memberBranch c r.n r.j).afterPassage_stepped c r.n r.j
  have branch := (s.tallied c r).memberBranch_frame c r.n r.j
  rw [← branch.track c]
  exact steps.same.track

theorem track_passed_other {d : Conv} (hd : d ≠ c) : (s.passed c r).track d = s.track d := by
  have steps := ((s.tallied c r).memberBranch c r.n r.j).afterPassage_stepped c r.n r.j
  refine (steps.others d hd).trans ?_
  rw [(memberBranch_frame _ c r.n r.j).track, track_tallied, if_neg hd]

theorem head_passed : ((s.passed c r).track c).head = (s.track c).head := by rw [track_passed, tallied_track]

theorem tail_passed : ((s.passed c r).track c).tail = (s.track c).tail := by rw [track_passed, tallied_track]

theorem record?_passed (j : Nat) : ((s.passed c r).track c).record? j = ((s.tallied c r).track c).record? j := by
  rw [track_passed, Track.record?_units]

/-- The count does not touch the run states of the units. -/
theorem unitState_branch (u : Nat) : ((s.tallied c r).memberBranch c r.n r.j).unitState? c u = s.unitState? c u := by
  rw [unitState?, unitState?, (memberBranch_frame _ c r.n r.j).track, tallied_track]

theorem passed_unit_exists (u : Nat) : ((s.passed c r).unitState? c u).isSome = (s.unitState? c u).isSome := by
  rw [← s.unitState_branch c r u]
  exact (unitSteps_unitStep c r.n r.j).exists_all _ u

section
variable {s c r} (nodup : (truckAddrs (s.members c)).Nodup)
include nodup

/-- The gap handed on is what the crossing makes of the speed of a follower in RUN. -/
theorem speed_passed {a : Addr} {len : Nat} (one : 1 ≤ r.n) (member : (s.members c)[r.n]? = some (.truck a len))
    (run : s.unitState? c (unitIndex (s.members c) r.n) = some .run) : (s.passed c r).speed a =
      ⟨if s.hls.halted then 0 else followerSpeed r.timer r.thr.tg (s.unitCmd c (unitIndex (s.members c) (r.n - 1)))
        (s.convoy c).params.kp (s.capAt c r.j), (s.speed a).cmd⟩ := by
  have follower : 1 ≤ unitIndex (s.members c) r.n := by
    by_contra first
    rw [unitState?, if_pos (by omega)] at run
    cases run
  have truck := truckAddrs_unitIndex member
  have count : unitIndex (s.members c) r.n < unitCount (s.members c) := (List.getElem?_eq_some_iff.mp truck).1
  have frame := s.tallied_branch_frame c r
  have kept := speed_afterPassage_run (k := r.n) (j := r.j) (by rwa [frame.members]) follower (by rwa [frame.members])
    ((s.unitState_branch c r _).trans run) (a := a) (by rwa [unitTruck?, frame.members])
  exact kept.trans (((memberBranch_frame _ c r.n r.j).speed a).trans (s.speed_tallied c r one member run))

/-- A unit that the crossing leaves DOWN was DOWN, or its truck stands. -/
theorem passed_down {u : Nat} (one : 1 ≤ u) (count : u < unitCount (s.members c))
    (down : (s.passed c r).unitState? c u = some .down) : s.unitState? c u = some .down
      ∨ ∀ a, s.unitTruck? c u = some a → (s.passed c r).speed a = ⟨0, 0⟩ := by
  have frame := s.tallied_branch_frame c r
  have fate := afterPassage_down (k := r.n) (j := r.j) (by rwa [frame.members]) one (by rwa [frame.members]) down
  rwa [unitState_branch, unitTruck?, frame.members] at fate

end

/-- The tail moves at the last member's crossing next to it, and at no other (R101 step 6). -/
theorem passed_tailMoves (record : (s.track c).record? r.j = some r) :
    (s.passed c r).TailMoves c r.j ↔ r.n + 1 = s.memberCount c ∧ r.j = (s.track c).tail + 1 := by
  have members : (s.passed c r).memberCount c = s.memberCount c := congrArg List.length ((s.passed_frame c r).members c)
  unfold TailMoves
  rw [members, tail_passed, record?_passed, (s.record?_tallied c r record).1]
  split
  · simp
  · simp

end

/-! ### The road that a tail leaves (R86, R87) -/

theorem tailLeft_alone {j : Nat} {x : Sec} (h : s.routeAt c j = some x) (hg : (s.sectionRec x).group = none) :
    s.tailLeft c j = s.clearFor c (s.map.holdTimeOf x) x := by
  unfold tailLeft
  rw [h]
  dsimp only
  rw [hg]

theorem tailLeft_grouped {j : Nat} {x : Sec} {g : Grp} (h : s.routeAt c j = some x) (hg : (s.sectionRec x).group = some g) :
    s.tailLeft c j = if s.groupAbove c g j then s
      else if (s.grp g).holder = some c then s.releaseGroup c g
      else s := by
  unfold tailLeft
  rw [h]
  dsimp only
  rw [hg]

theorem tailLeft_waits {j : Nat} {x : Sec} {g : Grp} (h : s.routeAt c j = some x) (hg : (s.sectionRec x).group = some g)
    (kept : s.groupAbove c g j = true ∨ (s.grp g).holder ≠ some c) : s.tailLeft c j = s := by
  rw [tailLeft_grouped s c h hg]
  rcases kept with above | other
  · rw [if_pos above]
  · rw [if_neg other, ite_self]

theorem tailLeft_releases {j : Nat} {x : Sec} {g : Grp} (h : s.routeAt c j = some x) (hg : (s.sectionRec x).group = some g)
    (passed : s.groupAbove c g j = false) (own : (s.grp g).holder = some c) : s.tailLeft c j = s.releaseGroup c g := by
  rw [tailLeft_grouped s c h hg, passed, if_neg Bool.false_ne_true, if_pos own]

/-- The section that a tail leaves, or its group once the route does not name it again, is CLEARING. -/
def LeftBehind (t : State) (j : Nat) : Prop := ∀ x, s.routeAt c j = some x →
  ((s.sectionRec x).group = none →
    (t.sec x).dyn = if s.holds c x then .clearing (s.map.holdTimeOf x) else (s.sec x).dyn)
  ∧ ∀ g, (s.sectionRec x).group = some g →
    (s.groupAbove c g j = true ∨ (s.grp g).holder ≠ some c → t.sil = s.sil)
    ∧ (s.groupAbove c g j = false → (s.grp g).holder = some c → (t.grp g).holder = none
      ∧ ∀ y ∈ s.map.listed g, s.holds c y = true → (t.sec y).dyn = .clearing (s.map.groupHoldTime g))

theorem tailLeft_leftBehind (j : Nat) : s.LeftBehind c (s.tailLeft c j) j := by
  refine fun x at_j => ⟨fun alone => ?_, fun g grouped => ⟨fun kept => ?_, fun passed own => ?_⟩⟩
  · rw [tailLeft_alone s c at_j alone, sec_clearFor]
    simp
  · rw [tailLeft_waits s c at_j grouped kept]
  · rw [tailLeft_releases s c at_j grouped passed own]
    refine ⟨s.holder_releaseGroup c g, fun y listed held => ?_⟩
    rw [sec_releaseGroup]
    exact if_pos ⟨listed, held⟩

/-- What is left behind is said of the Interlock's state alone. -/
theorem LeftBehind.congr {s a t b : State} {c : Conv} {j : Nat} (h : a.LeftBehind c t j) (sil : a.sil = s.sil)
    (map : a.map = s.map) (after : b.sil = t.sil) : s.LeftBehind c b j := by
  have at_j : a.routeAt c j = s.routeAt c j := by simp only [routeAt, road, sil]
  have sec (y : Sec) : a.sec y = s.sec y := by simp only [State.sec, sil]
  have grp (g : Grp) : a.grp g = s.grp g := by simp only [State.grp, sil]
  have record (y : Sec) : a.sectionRec y = s.sectionRec y := congrArg (fun m : LayoutMap => m.sections.nth y) map
  have held (y : Sec) : a.holds c y = s.holds c y := holds_congr (by rw [sec]) c
  have above (g : Grp) : a.groupAbove c g j = s.groupAbove c g j := by simp only [groupAbove, road, record, sil]
  have secs (y : Sec) : b.sec y = t.sec y := by simp only [State.sec, after]
  have grps (g : Grp) : b.grp g = t.grp g := by simp only [State.grp, after]
  unfold LeftBehind at h ⊢
  simpa only [at_j, record, sec, grp, held, above, sil, map, secs, grps, after] using h

/-! ### The end at the head (R107) -/

/-- The tail of an ARRIVING convoy is at its head. -/
def AtHead : Prop := (s.convoy c).state = .arriving ∧ (s.track c).tail = (s.track c).head

theorem checkArrived_arrives (h : s.AtHead c) : s.checkArrived c =
    ((s.setState c .arrived).standRest c).raise (Notice.ofConvoy .arrived c (s.headSec? c)) (.ownerOf c) := if_pos h

theorem checkArrived_waits (h : ¬ s.AtHead c) : s.checkArrived c = s := if_neg h

/-- What the look for an arrival makes of a state. -/
structure Ended (s t : State) (c : Conv) : Prop where
  sil : t.sil = s.sil
  map : t.map = s.map
  track : t.track c = { s.track c with units := (t.track c).units }
  convoy : t.convoy c = { s.convoy c with state := (t.convoy c).state }
  others : ∀ d, d ≠ c → t.convoy d = s.convoy d ∧ t.track d = s.track d
  trucks : t.cvt.trucks = s.cvt.trucks

theorem setState_convoy (st : ConvoyState) (d : Conv) :
    (s.setState c st).convoy d = if d = c then { s.convoy c with state := st } else s.convoy d := by
  rw [setState, convoy_modConvoy]

theorem checkArrived_ended : Ended s (s.checkArrived c) c := by
  by_cases h : s.AtHead c
  · have rest := standRest_stepped (s.setState c .arrived) c
    have fr := standRest_frame (s.setState c .arrived) c
    have fe := ((s.setState c .arrived).standRest c).raise_frame (Notice.ofConvoy .arrived c (s.headSec? c)) (.ownerOf c)
    have fs := s.setState_frame c .arrived
    rw [checkArrived_arrives s c h]
    generalize ((s.setState c .arrived).standRest c).raise _ _ = t at fe
    refine ⟨(fe.sil.trans fr.sil).trans fs.sil, (fe.map.trans fr.map).trans fs.map, ?_, ?_, fun d hd => ⟨?_, ?_⟩, ?_⟩
    · rw [fe.track, rest.same.track, fs.track]
    · rw [fe.convoy, fr.convoy, setState_convoy, if_pos rfl]
    · rw [fe.convoy, fr.convoy, setState_convoy, if_neg hd]
    · rw [fe.track, rest.others d hd, fs.track]
    · rw [fe.cvt, fr.cvt]
      rfl
  · rw [checkArrived_waits s c h]
    exact ⟨rfl, rfl, rfl, rfl, fun d _ => ⟨rfl, rfl⟩, rfl⟩

theorem checkArrived_convoy (h : s.AtHead c) : (s.checkArrived c).convoy c = { s.convoy c with state := .arrived } := by
  rw [checkArrived_arrives s c h, (raise_frame _ _ _).convoy, (standRest_frame _ c).convoy, setState_convoy, if_pos rfl]

/-- At an arrival every follower unit is DOWN, and the trucks of those that were not stand. -/
theorem checkArrived_unit (h : s.AtHead c) (nodup : (truckAddrs (s.members c)).Nodup) {u : Nat} (one : 1 ≤ u)
    (count : u < unitCount (s.members c)) :
    (s.checkArrived c).unitState? c u = (s.unitState? c u).map (fun _ => .down)
      ∧ ∀ a, s.unitTruck? c u = some a →
        (s.checkArrived c).speed a = if s.unitState? c u = some .down then s.speed a else ⟨0, 0⟩ := by
  have fe := ((s.setState c .arrived).standRest c).raise_frame (Notice.ofConvoy .arrived c (s.headSec? c)) (.ownerOf c)
  have fs := s.setState_frame c .arrived
  have members : (s.setState c .arrived).members c = s.members c := by
    rw [State.members, setState_convoy, if_pos rfl]
    rfl
  have unit := standRest_unit (s := s.setState c .arrived) (c := c) (by rwa [members]) one (by rwa [members])
  have states (w : Nat) : (s.setState c .arrived).unitState? c w = s.unitState? c w := by
    rw [unitState?, unitState?, fs.track]
  rw [checkArrived_arrives s c h]
  generalize ((s.setState c .arrived).standRest c).raise _ _ = t at fe
  rw [unitTruck?, members, ← unitTruck?] at unit
  rw [states] at unit
  refine ⟨?_, fun a ha => ?_⟩
  · rw [← unit.1, unitState?, unitState?, fe.track]
  · rw [fe.speed, unit.2 a ha, fs.speed]

/-! ### The move of the tail, and the look for an arrival (R101 step 6) -/

/-- The tail has moved, and its road is left; the look for an arrival is still to come. -/
def tailMoved (r : Crossing) : State := ((s.passed c r).tailAt c r.j).tailLeft c (r.j - 1)

section
variable (r : Crossing)

theorem tailMoved_frame : KeepsAllBut (s.passed c r) (s.tailMoved c r) [.interlock, .tracker] :=
  tailAt_left_frame _ c r.j

theorem track_tailMoved (d : Conv) : (s.tailMoved c r).track d = if d = c then
      { (s.passed c r).track c with
        tail := r.j, records := ((s.passed c r).track c).records.filter fun q => q.j != r.j }
    else (s.passed c r).track d := by
  rw [tailMoved, track_tailLeft, track_tailAt]

theorem record?_tailMoved (j : Nat) : ((s.tailMoved c r).track c).record? j =
    if j = r.j then none else ((s.passed c r).track c).record? j := by
  rw [track_tailMoved, if_pos rfl, Track.record?_tailAt]

theorem head_tailMoved : ((s.tailMoved c r).track c).head = (s.track c).head := by
  rw [track_tailMoved, if_pos rfl, ← s.head_passed c r]

theorem tail_tailMoved : ((s.tailMoved c r).track c).tail = r.j := by rw [track_tailMoved, if_pos rfl]

theorem track_tailMoved_other {d : Conv} (hd : d ≠ c) : (s.tailMoved c r).track d = s.track d := by
  rw [track_tailMoved, if_neg hd, track_passed_other s c r hd]

theorem unitState_tailMoved (u : Nat) : (s.tailMoved c r).unitState? c u = (s.passed c r).unitState? c u := by
  rw [unitState?, unitState?, track_tailMoved, if_pos rfl]

theorem roads_tailMoved (d : Conv) : (s.tailMoved c r).road d = s.road d := by
  rw [tailMoved, road_tailLeft, tailAt, (modTrack_frame _ c _).road, (s.passed_frame c r).road]

theorem tailMoved_leftBehind : s.LeftBehind c (s.tailMoved c r) (r.j - 1) := by
  have left := tailLeft_leftBehind ((s.passed c r).tailAt c r.j) c (r.j - 1)
  have frame : KeepsAllBut s ((s.passed c r).tailAt c r.j) [.tracker, .governor, .dispatcher] :=
    (s.passed_frame c r).trans (modTrack_frame _ c _).mono
  exact left.congr frame.sil frame.map rfl

/-- The move of the tail puts an ARRIVING convoy at its head where the boundary is the head's. -/
theorem tailMoved_atHead : (s.tailMoved c r).AtHead c ↔ (s.convoy c).state = .arriving ∧ r.j = (s.track c).head := by
  rw [AtHead, head_tailMoved, tail_tailMoved, (s.tailMoved_frame c r).convoy, (s.passed_frame c r).convoy]

/-- At an arrival every follower unit is DOWN, and the trucks of those that were not before the crossing stand. -/
theorem arrival_unit (h : (s.tailMoved c r).AtHead c) (nodup : (truckAddrs (s.members c)).Nodup) {u : Nat} (one : 1 ≤ u)
    (count : u < unitCount (s.members c)) :
    ((s.tailMoved c r).checkArrived c).unitState? c u = (s.unitState? c u).map (fun _ => .down)
      ∧ ∀ a, s.unitTruck? c u = some a → s.unitState? c u ≠ some .down →
        ((s.tailMoved c r).checkArrived c).speed a = ⟨0, 0⟩ := by
  have frame := s.tailMoved_frame c r
  have members : (s.tailMoved c r).members c = s.members c := (frame.members c).trans ((s.passed_frame c r).members c)
  obtain ⟨states, speeds⟩ := checkArrived_unit _ c h (by rwa [members]) one (by rwa [members])
  rw [unitState_tailMoved] at states speeds
  rw [unitTruck?, members] at speeds
  refine ⟨states.trans ?_, fun a truck up => ?_⟩
  · have exist := s.passed_unit_exists c r u
    generalize (s.passed c r).unitState? c u = o at exist
    generalize s.unitState? c u = q at exist
    cases o <;> cases q <;> simp_all
  · rw [speeds a truck]
    split
    · rename_i down
      rw [frame.speed]
      exact ((passed_down nodup one count down).resolve_left up) a truck
    · rfl

end

end State

/-- Settles O43: count, gap and timer (`record?_tallied`, `speed_passed`), the road left behind (`tailMoved_leftBehind`),
and the arrival (`arrival_unit`). -/
theorem memberCrossingsCountAndMoveTheTail : Obligations.MemberCrossingsCountAndMoveTheTail := by
  intro s c r nodup record more
  have frame := s.memberCrossing_frame c r
  have crossing := s.memberCrossing_eq c r
  generalize s.memberCrossing c r = t at frame crossing ⊢
  have fp := s.passed_frame c r
  have moves := s.passed_tailMoves c r record
  obtain ⟨counted, elsewhere⟩ := s.record?_tallied c r record
  simp only [← s.record?_passed c r] at counted elsewhere
  have speeds (a : Addr) (len : Nat) := State.speed_passed (a := a) (len := len) nodup (r := r)
  by_cases last : r.n + 1 = s.memberCount c ∧ r.j = (s.track c).tail + 1
  · rw [State.advanceTail_moves _ c (moves.mpr last)] at crossing
    change t = (s.tailMoved c r).checkArrived c at crossing
    have fv := s.tailMoved_frame c r
    have behind := s.tailMoved_leftBehind c r
    have ended := (s.tailMoved c r).checkArrived_ended c
    have arrives := s.tailMoved_atHead c r
    have waits := (s.tailMoved c r).checkArrived_waits c
    have unit (h : (s.tailMoved c r).AtHead c) (u : Nat) := s.arrival_unit c r h nodup (u := u)
    have state := (s.tailMoved c r).checkArrived_convoy c
    have head := s.head_tailMoved c r
    have tail := s.tail_tailMoved c r
    have recorded := s.record?_tailMoved c r
    have others (d : Conv) (hd : d ≠ c) := s.track_tailMoved_other c r hd
    have roads := s.roads_tailMoved c r
    rw [← crossing] at ended waits unit state
    generalize s.tailMoved c r = v at fv behind ended arrives waits unit state head tail recorded others roads
    have convoy (d : Conv) : v.convoy d = s.convoy d := (fv.convoy d).trans (fp.convoy d)
    have found (j : Nat) : (t.track c).record? j = (v.track c).record? j := by
      rw [ended.track, Track.record?_units]
    dsimp only
    simp only [eq_true last, true_and, if_true, not_true_eq_false, false_imp_iff, ← arrives, forall_const]
    refine ⟨by rw [ended.track, head], by rw [ended.track, tail], by rw [found, recorded, if_pos rfl],
      fun j hj => by rw [found, recorded, if_neg hj, elsewhere j hj], fun a len one member run no => ?_, ?_, unit,
      behind.congr rfl rfl ended.sil, fun d hd => ⟨?_, ?_, ?_⟩, ?_, frame⟩
    · rw [waits no, fv.speed]
      exact speeds a len one member run
    · by_cases h : v.AtHead c
      · rw [if_pos ⟨last, arrives.mp h⟩, state h, convoy]
      · rw [if_neg fun k => h (arrives.mpr k.2), waits h, convoy]
    · rw [(ended.others d hd).1, convoy]
    · rw [State.road, ended.sil, ← State.road, roads]
    · rw [(ended.others d hd).2, others d hd]
    · rw [ended.trucks, fv.cvt, fp.cvt]
  · rw [State.advanceTail_stays _ c (mt moves.mp last)] at crossing
    have head := s.head_passed c r
    have tail := s.tail_passed c r
    have others (d : Conv) (hd : d ≠ c) := s.track_passed_other c r hd
    rw [← crossing] at fp counted elsewhere speeds head tail others
    dsimp only
    simp only [last, false_and, if_false, not_false_eq_true, false_imp_iff, true_and, forall_const]
    refine ⟨head, tail, counted, elsewhere, fun a len one member run => ?_, fp.convoy c, fp.sil,
      fun d hd => ⟨fp.convoy d, fp.road d, others d hd⟩, congrArg ConvoyTable.trucks fp.cvt, frame⟩
    exact speeds a len one member run

end Sys2Proof.Machine
end
